-- ==== Sys2Proof/Word.lean ====
section
/-! DEFINITION. The word types: a byte of code or memory, and the 64-bit word every register is held in
(`CRW` and `EFERW` of 00_scope.md section 4; in the x86_32 variant the upper half of a register stays 0,
notes/assumptions/35.md). -/

namespace Sys2Proof

/-- A byte: the unit of code and of addressing (20_memory.md R70). -/
abbrev Byte := BitVec 8

/-- A register's content (00_scope.md R1: bit 0 is the least significant). -/
abbrev Word := BitVec 64

/-- The content of a register whose width and format the spec does not give (10_state.md R59, R58;
91 N15, N26): known only as equal to itself. -/
abbrev Content := Nat

end Sys2Proof
end

