-- ==== Sys2Proof/Syntax.lean ====
section
/-! DEFINITION. The instructions: one constructor for each of the 29 rows of spec/opcode_table.json, with the
operand fields the table and 30_encoding.md R101, R102 give them. -/

namespace Sys2Proof

/-- A segment-override byte of 30_encoding.md R101. -/
inductive Seg where
  | es | cs | ss | ds | fs | gs
  deriving DecidableEq, Repr

/-- The size a memory operand's address has, which says what bytes ModRM asks for (30_encoding.md R101). -/
inductive AddrSize where
  | a16 | a32 | a64
  deriving DecidableEq, Repr

/-- What the mode makes of the code being decoded (30_encoding.md R107): 16-bit code (real mode, or the code segment's
D bit 0), 32-bit code (D bit 1), or 64-bit mode. Which value of the D bit is which is PRESUMED
(notes/assumptions/44.md). -/
inductive CodeSize where
  | c16 | c32 | c64
  deriving DecidableEq, Repr

/-- The default operand size in bits (30_encoding.md R107). No instruction of the table reads it: R102 fixes the operand
size of the MOV forms by the mode alone, and the other rows have none. -/
def CodeSize.operandBits : CodeSize → Nat
  | .c16 => 16
  | .c32 => 32
  | .c64 => 32

/-- The default address size. PRESUMED: the family's (notes/assumptions/6.md); R107 gives the operand size only. -/
def CodeSize.addrSize : CodeSize → AddrSize
  | .c16 => .a16
  | .c32 => .a32
  | .c64 => .a64

/-- The address size with the 67h byte of 30_encoding.md R101. PRESUMED: the family's (notes/assumptions/6.md). -/
def CodeSize.otherAddrSize : CodeSize → AddrSize
  | .c16 => .a32
  | .c32 => .a16
  | .c64 => .a32

/-- The memory operand of format `OP2_MODRM_MEM` (30_encoding.md R101, R104): its address size, the ModRM fields other
than the opcode extension, the SIB and displacement bytes they ask for, and the REX and segment bytes before the
opcode. How an address is formed from them is not in the spec (44_families_not_described.md R234). -/
structure MemOperand where
  asz  : AddrSize
  seg  : Option Seg
  rex  : Option (BitVec 4)
  mod  : BitVec 2
  rm   : BitVec 3
  sib  : Option Byte
  disp : List Byte
  deriving DecidableEq, Repr

/-- An instruction of the opcode table. In the `MOV` forms `m` is the ModRM `mod` field, which is kept and ignored
(30_encoding.md R102), `n` the control or debug register number and `r` the general register number, each
with the fourth bit REX gives. -/
inductive Instr where
  | movRCr (m : BitVec 2) (n : BitVec 4) (r : BitVec 4)
  | movCrR (m : BitVec 2) (n : BitVec 4) (r : BitVec 4)
  | rdmsr
  | wrmsr
  | cli
  | sti
  | int (i : Byte)
  | rdtsc
  | rdtscp
  | movRDr (m : BitVec 2) (n : BitVec 4) (r : BitVec 4)
  | movDrR (m : BitVec 2) (n : BitVec 4) (r : BitVec 4)
  | rdpmc
  | fxsave (op : MemOperand)
  | fxrstor (op : MemOperand)
  | xgetbv
  | xsetbv
  | xsave (op : MemOperand)
  | xrstor (op : MemOperand)
  | syscall
  | sysret
  | vmrun
  | vmmcall
  | vmload
  | vmsave
  | stgi
  | clgi
  | skinit
  | invlpga
  | cpuid
  deriving DecidableEq, Repr

end Sys2Proof
end

