-- ==== Sys2Proof/Config.lean ====
section
/-! DEFINITION. What an implementation fixes (00_scope.md section 4) and the free values: constants with no body, so
that no proof can see what they are. -/

namespace Sys2Proof

/-- The variant (00_scope.md R3, parameter `ARCH`). -/
inductive Arch where
  | x86_32 | x86_64
  deriving DecidableEq, Repr, Inhabited

/-- What an unmasked 256-bit media floating-point error does while OSXMMEXCPT = 0 (parameter
`XF256_WHEN_OSXMMEXCPT0`, decision D16; the default is `refuse`). -/
inductive Xf256 where
  | refuse | invalidOpcode
  deriving DecidableEq, Repr, Inhabited

/-- The open parameters of 00_scope.md section 4. `CR0_BIT4` is not here: it is bit 4 of CR0
(notes/assumptions/11.md); `SVME_DISABLE` is held in VM_CR. -/
structure Params where
  arch        : Arch
  hasNx       : Bool
  hasFfxsr    : Bool
  hasSvm      : Bool
  hasXsave    : Bool
  xf256       : Xf256
  deriving DecidableEq, Repr, Inhabited

/-- `HAS_LM` = (`ARCH` = x86_64), decision D2. -/
def Params.hasLm (p : Params) : Bool := p.arch == .x86_64

/-- A part of the floating-point and media state that FXSAVE and FXRSTOR move (42_cr4_gated.md R150). -/
inductive Component where
  | x87 | mmx | mxcsr | xmm
  deriving DecidableEq, Repr, Inhabited

/-- A cached translation (10_state.md R61): a linear address, the physical address it has, and whether it is global.
DESIGN CHOICE: R61 gives the flag alone; the pair of 64-bit byte addresses, with no page size and no other attribute, is
the model's (notes/assumptions/22.md). -/
structure TlbEntry where
  linear   : Word
  physical : Word
  isGlobal : Bool
  deriving DecidableEq, Repr, Inhabited

/-- What translation may depend on: what 20_memory.md R72 to R82 name, and the draw. `tableField` is CR3 without PWT and
PCD, which change no value a program computes (R77); of EFER it has LMA and NXE and not LMSLE (R94), of CR4 the three
paging bits, and nothing of CR0, whose unnamed bits have no behaviour (10_state.md R15; notes/assumptions/21.md). -/
structure PagingView where
  tableField : Word
  pse        : Bool
  pae        : Bool
  pge        : Bool
  lma        : Bool
  nxe        : Bool
  mem        : List (Nat × Byte)
  tlb        : List TlbEntry
  draw       : Nat
  deriving DecidableEq, Repr, Inhabited

/-- The processor's parameters: open (00_scope.md section 4, decision D18), but for `xf256`. -/
opaque Config.params : Params

/-- The value of `XF256_WHEN_OSXMMEXCPT0` (00_scope.md section 4, 42_cr4_gated.md R152, decision D16): `refuse`. A state
whose `params` say otherwise is that of a user who knows the processor. -/
def Config.xf256 : Xf256 := .refuse

/-- VM_CR.SVME_DISABLE on this processor: open (00_scope.md section 4, 91 N18). -/
opaque Config.svmeDisable : Bool

/-- The `k`-th free word (decision D27). -/
opaque Config.freeWord : Nat → Word

/-- A free byte: draw `k`, offset `j` in an image (93 U11). -/
opaque Config.freeByte : Nat → Nat → Byte

/-- A free content: draw `k`, place `j` (93 U12). -/
opaque Config.freeContent : Nat → Nat → Content

/-- A free choice between two outcomes the spec admits (60_exceptions.md R189). -/
opaque Config.freeChoice : Nat → Bool

/-- The linear address a memory operand names: how it is formed is not in the spec (44_families_not_described.md
R234), so it is free in the operand, the general registers and the draw. -/
opaque Config.effectiveAddress : MemOperand → Vector Word 16 → Nat → Word

/-- The physical address of a linear address while paging is on: an opaque relation (91 N12). -/
opaque Config.walk : PagingView → Word → Word

/-- How many bytes the image of FXSAVE has (not in the spec, R150). DESIGN CHOICE: one size in every mode
(notes/assumptions/17.md), and FXRSTOR reads as many (R151, R234; notes/assumptions/18.md). -/
opaque Config.fxImageBytes : Nat

/-- Which component the byte at an offset of that image belongs to, if any (layout not in the spec, R150). DESIGN CHOICE:
one layout in every mode (R234; notes/assumptions/17.md). -/
opaque Config.fxImageOwner : Nat → Option Component

/-- The content FXRSTOR loads into place `j` of a component from the image's bytes (layout not in the spec, R151). DESIGN
CHOICE: the same bytes load the same in every mode (R234; notes/assumptions/18.md). -/
opaque Config.fxLoad : Component → Nat → List Byte → Content

/-- How many bytes the image of XSAVE and XRSTOR has, given XCR0 and the component mask EDX:EAX (not in the spec, R155,
R156). DESIGN CHOICE: nothing else decides it, so it is the same in every mode and at every execution (R234;
notes/assumptions/19.md). -/
opaque Config.xsaveBytes : Word → Word → Nat

/-- What place `j` of the media state holds after XRSTOR: free in what it held, XCR0, the component mask EDX:EAX, the
image's bytes and the draw (which components are restored and the layout are not in the spec, R103, R156). -/
opaque Config.xrstorLoad (j : Nat) (old : Content) (xcr0 mask : Word) (image : List Byte) (draw : Nat) : Content

/-- What XCR0 holds after XSETBV of a value: free in what it held, the value and the draw (42_cr4_gated.md R154: the
model stores nothing). -/
opaque Config.xcrWritten (old value : Word) (draw : Nat) : Word

/-- What XGETBV answers for number ECX, given what XCR0 holds and the draw (42_cr4_gated.md R153, 93 U11). -/
opaque Config.xcrRead : BitVec 32 → Word → Nat → Word

/-- The four results of CPUID, fixed for the processor (00_scope.md R6: a parameter of the step). PRESUMED: that they
are four and depend on the values of EAX and ECX (notes/assumptions/30.md). -/
opaque Config.cpuidEax : BitVec 32 → BitVec 32 → BitVec 32
opaque Config.cpuidEbx : BitVec 32 → BitVec 32 → BitVec 32
opaque Config.cpuidEcx : BitVec 32 → BitVec 32 → BitVec 32
opaque Config.cpuidEdx : BitVec 32 → BitVec 32 → BitVec 32

/-- Whether a bank's control register enables the reporting of an error (formats not in the spec, R58). -/
opaque Config.mcErrorEnabled : Content → Content → Bool

/-- What a bank's status register holds after an error was recorded over its old content (R58, R183). -/
opaque Config.mcStatusAfter : Content → Content → Content

/-- Whether F0 0F 20 and F0 0F 22 reach CR8 on this processor (30_encoding.md R106: "on some AMD processors"). -/
opaque Config.lockReachesCr8 : Bool

end Sys2Proof
end

