-- ==== Sys2Proof/Machine/State.lean ====
section
/-! DEFINITION. The machine's state as plain data: every piece of state of 10_state.md R10 to R64, the general
registers of 30_encoding.md R102, and the model's own fields (INVENTORY.md, State). Its reset value. The reasons
a step can stop. -/

namespace Sys2Proof.Machine

/-- The faults of 00_scope.md R4 and R8. Each ends the run with the state unchanged (60_exceptions.md R190,
decision D19): safe, since the hardware goes on to a handler the spec does not describe. -/
inductive Fault where
  /-- #UD (60_exceptions.md R181): MOV to DR4 or DR5 while DE = 1, a media instruction while OSFXSR = 0, an unmasked
  128-bit media error while OSXMMEXCPT = 0, an SVM instruction while SVME = 0, MOV to CR5 to CR7, a LOCK byte. -/
  | invalidOpcode
  /-- #XF (60_exceptions.md R184): an unmasked media floating-point error while OSXMMEXCPT = 1. -/
  | simdFloatingPoint
  /-- #MC (60_exceptions.md R183): an uncorrectable machine-check error while MCE = 1. -/
  | machineCheck
  /-- The page fault (60_exceptions.md R182) on a linear address. -/
  | pageFault (linear : Word)
  /-- `NotPermitted` (60_exceptions.md R185): the action is reserved to privilege level 0 or needs an enable bit, and
  the spec names no exception. -/
  | notPermitted
  /-- No exception: the processor's turn finds the listed program at its end (00_scope.md R9, decision D24), whatever
  turns are still listed (notes/assumptions/23.md). Safe. -/
  | endOfProgram
  deriving DecidableEq, Repr

/-- The refusals of 00_scope.md R4: the spec gives the operation no meaning from that state. All are safe: a refusal
claims nothing. -/
inductive Refusal where
  /-- An instruction whose arm in exec has no meaning yet. -/
  | notModelled (mnemonic : String)
  /-- A write that sets a reserved or unnamed bit of CR0, CR3, CR4 or EFER (10_state.md R16, R24, R38, R47). -/
  | reservedBits
  /-- MOV to or from CR1 (40_cr_access.md R114). -/
  | cr1Reserved
  /-- A write that sets an enable bit of an absent feature (decision D18). -/
  | featureAbsent
  /-- WRMSR of EFER with another value of LMA (41_efer_access.md R133). -/
  | writeChangesReadOnlyLma
  /-- WRMSR of EFER turning SVME off under a guest (41_efer_access.md R136). -/
  | undefinedSvmeOffWhileGuestRuns
  /-- MOV to CR0 clearing PG in 64-bit mode (40_cr_access.md R112). -/
  | leavingLongModeFrom64BitMode
  /-- MOV to CR3 in long mode (40_cr_access.md R116). -/
  | cr3LongModeFormatNotInSource
  /-- A gate evaluated while rFLAGS.VM = 1 (decision D17; 60_exceptions.md R194): every instruction but MOV to and from
  control registers, RDMSR and WRMSR. -/
  | virtual8086ModeNotModelled
  /-- An unmasked 256-bit media error while OSXMMEXCPT = 0, by the parameter's default (42_cr4_gated.md R152). -/
  | xf256WhenOsxmmexcpt0
  /-- An uncorrectable machine-check error while MCE = 0 (60_exceptions.md R183). -/
  | machineCheckWithMceClear
  /-- A page-fault turn while paging is off: no translation can fail (10_state.md R49). -/
  | pageFaultWithPagingOff
  /-- MOV to or from CR8 to CR15 (40_cr_access.md R121, R122: outside this spec). -/
  | crOutsideSpec (n : Nat)
  /-- MOV to or from DR0 to DR3 and DR8 to DR15 (91 N25: not in the spec). -/
  | drOutsideSpec (n : Nat)
  /-- RDMSR or WRMSR of a number other than EFER's (41_efer_access.md R134, R135: outside this spec). -/
  | msrOutsideSpec (number : BitVec 32)
  /-- A byte sequence no row of the opcode table matches (30_encoding.md R106). -/
  | notInSpec
  /-- The program's bytes end inside an instruction. -/
  | truncatedInstruction
  /-- A LOCK byte before MOV to or from a control register where that reaches CR8 (30_encoding.md R106). -/
  | lockReachesCr8
  deriving DecidableEq, Repr

/-- The named bits of rFLAGS (10_state.md R53). -/
structure Rflags where
  ifl  : Bool
  vif  : Bool
  vip  : Bool
  iopl : BitVec 2
  vm   : Bool
  deriving DecidableEq, Repr

/-- The named bits of VM_CR (10_state.md R60). -/
structure VmCr where
  lock        : Bool
  svmeDisable : Bool
  deriving DecidableEq, Repr

/-- A machine-check error-reporting bank (10_state.md R58). -/
structure McBank where
  control : Content
  status  : Content
  deriving DecidableEq, Repr

/-- The floating-point and media state (10_state.md R59): contents whose widths the spec does not give. `ext` is the
"other processor extended states". -/
structure Media where
  x87   : Content
  mmx   : Content
  mxcsr : Content
  xmm   : Vector Content 16
  ymm   : Content
  ext   : Content
  deriving DecidableEq, Repr

/-- The two gated media classes (42_cr4_gated.md R149). -/
inductive MediaWidth where
  | w128 | w256
  deriving DecidableEq, Repr

/-- What happens without an instruction of the opcode table: the hardware's own steps (00_scope.md R5), the class
operations that have no row, and the inputs the spec names. -/
inductive Event where
  /-- A translation of this linear address fails (20_memory.md R80). -/
  | pageFault (linear : Word)
  /-- A machine-check error in a bank (60_exceptions.md R183). -/
  | machineCheck (bank : Nat) (error : Content) (uncorrectable : Bool)
  /-- A translation is cached; `g` is the G bit of its lowest-level entry (20_memory.md R78). -/
  | tlbFill (linear physical : Word) (g : Bool)
  /-- The processor drops an entry (10_state.md R61). -/
  | tlbDrop (e : TlbEntry)
  /-- A media instruction of the class (42_cr4_gated.md R149). -/
  | mediaInsn (w : MediaWidth)
  /-- A media instruction of the class meets an unmasked floating-point error (42_cr4_gated.md R152). -/
  | mediaFpError (w : MediaWidth)
  /-- Another instruction that manipulates rFLAGS.IF (42_cr4_gated.md R143). -/
  | ifInsn
  /-- The code segment's L bit, an input (10_state.md R51, 91 N7). -/
  | inputCsL (b : Bool)
  /-- The code segment's D bit, an input (30_encoding.md R107). -/
  | inputCsD (b : Bool)
  /-- `guest_running`, an input (41_efer_access.md R136). -/
  | inputGuestRunning (b : Bool)
  deriving DecidableEq, Repr

/-- Whose turn it is. -/
inductive Turn where
  | processor
  | event (e : Event)
  deriving DecidableEq, Repr

/-- What the last abstract operation returned (00_scope.md R4, R7; 10_state.md R63): nothing, a value, the gate's bare
`Permitted`, or `Permitted` with the components FXSAVE saved or FXRSTOR restored. -/
inductive Answer where
  | nothing
  | value (v : Word)
  | permitted
  | moved (cs : List Component)
  deriving DecidableEq, Repr

/-- The machine's state. -/
structure State where
  /-- General registers, by number (30_encoding.md R102). -/
  gpr          : Vector Word 16
  cr0          : Word
  cr2          : Word
  cr3          : Word
  cr4          : Word
  efer         : Word
  cpl          : Fin 4
  csL          : Bool
  /-- The code segment's D bit (30_encoding.md R107), an input as `csL` is; that 1 means 32-bit code is PRESUMED
  (notes/assumptions/44.md). -/
  csD          : Bool
  rflags       : Rflags
  dr6          : Word
  dr7          : Word
  /-- The time-stamp counter (10_state.md R56). -/
  tsc          : Word
  /-- The PerfCtrn counters by number, in the store's canonical form (10_state.md R57). -/
  perf         : List (Nat × Word)
  xcr0         : Word
  vmCr         : VmCr
  /-- The machine-check banks by number, in the store's canonical form (10_state.md R58). -/
  mcBanks      : List (Nat × McBank)
  media        : Media
  /-- The interrupt-redirection bitmap of the TSS. DESIGN CHOICE: 10_state.md R54 says that its size and place are not
  in the document; here it has one bit per INT n vector (42_cr4_gated.md R142, general knowledge), 256, and stands
  apart from memory, so that no store reaches it (notes/assumptions/45.md). -/
  redirect     : BitVec 256
  tlb          : List TlbEntry
  /-- Memory by physical address, in canonical form. -/
  mem          : List Host.Cell
  guestRunning : Bool
  /-- The processor's parameters (00_scope.md section 4): no step changes them. -/
  params       : Params
  /-- MODEL: the program's bytes not yet run (00_scope.md R9). -/
  code         : List Byte
  /-- MODEL: whose turn it is, next first; the processor's when empty. -/
  schedule     : List Turn
  /-- MODEL: an exception a hardware event has taken: the run stops with it. -/
  raised       : Option Fault
  /-- MODEL: what the last abstract operation returned. -/
  answer       : Answer
  /-- MODEL: how many free values have been drawn. -/
  draws        : Nat
  deriving DecidableEq, Repr

/-- The machine right after reset. The spec states EFER.SVME = 0 only (70_reset_and_hazards.md R210); the other
values are that rule's general-knowledge column (PRESUMED, notes/assumptions/9.md) and, where it has none,
those of notes/assumptions/10.md. -/
def State.reset : State where
  gpr          := Vector.replicate 16 0#64
  cr0          := 0x60000010#64
  cr2          := 0#64
  cr3          := 0#64
  cr4          := 0#64
  efer         := 0#64
  cpl          := 0
  csL          := false
  csD          := false
  rflags       := ⟨false, false, false, 0#2, false⟩
  dr6          := 0xFFFF0FF0#64
  dr7          := 0x00000400#64
  tsc          := 0#64
  perf         := []
  xcr0         := 1#64
  vmCr         := ⟨false, Config.svmeDisable⟩
  mcBanks      := []
  media        := ⟨0, 0, 0x1F80, Vector.replicate 16 0, 0, 0⟩
  redirect     := 0#256
  tlb          := []
  mem          := []
  guestRunning := false
  params       := { Config.params with xf256 := Config.xf256 }
  code         := []
  schedule     := []
  raised       := .none
  answer       := .nothing
  draws        := 0

end Sys2Proof.Machine
end

