-- ==== Sys2Proof/Machine/Flags.lean ====
section
/-! DEFINITION. The fields of CR0, CR3, CR4 and EFER by name (10_state.md R13 to R47), the modes they define (R48 to
R51, 60_exceptions.md R194), the features they enable, and the bit-field helpers. -/

namespace Sys2Proof.Machine

/-- `v` with bit `k` replaced by `b`. -/
def withBit (v : Word) (k : Nat) (b : Bool) : Word :=
  if b then v ||| (1#64 <<< k) else v &&& ~~~(1#64 <<< k)

/-- The high 32 bits, bits 63:32. -/
def high32 (v : Word) : BitVec 32 := v.extractLsb' 32 32

/-- The low 32 bits, bits 31:0. -/
def low32 (v : Word) : BitVec 32 := v.extractLsb' 0 32

/-- `zext_64` of a 32-bit value. -/
def zext64 (v : BitVec 32) : Word := v.setWidth 64

/-- The twelve bits of CR4 the spec names (40_cr_access.md R119). -/
def cr4Named : Word := 0x000407FF#64

/-- The seven bits of EFER the spec names (41_efer_access.md R131). -/
def eferNamed : Word := 0x00007D01#64

/-- EFER's MSR number (decision D25). -/
def eferMsr : BitVec 32 := 0xC0000080#32

/-- CR0.PE (R13), CR0.PG (R14). -/
def State.pe (s : State) : Bool := s.cr0.getLsbD 0
def State.pg (s : State) : Bool := s.cr0.getLsbD 31

/-- CR3.PWT (R20), CR3.PCD (R21). -/
def State.pwt (s : State) : Bool := s.cr3.getLsbD 3
def State.pcd (s : State) : Bool := s.cr3.getLsbD 4

/-- The fields of CR4 (R26 to R37). -/
def State.vme (s : State) : Bool := s.cr4.getLsbD 0
def State.pvi (s : State) : Bool := s.cr4.getLsbD 1
def State.tsd (s : State) : Bool := s.cr4.getLsbD 2
def State.de (s : State) : Bool := s.cr4.getLsbD 3
def State.pse (s : State) : Bool := s.cr4.getLsbD 4
def State.pae (s : State) : Bool := s.cr4.getLsbD 5
def State.mce (s : State) : Bool := s.cr4.getLsbD 6
def State.pge (s : State) : Bool := s.cr4.getLsbD 7
def State.pce (s : State) : Bool := s.cr4.getLsbD 8
def State.osfxsr (s : State) : Bool := s.cr4.getLsbD 9
def State.osxmmexcpt (s : State) : Bool := s.cr4.getLsbD 10
def State.osxsave (s : State) : Bool := s.cr4.getLsbD 18

/-- The fields of EFER (R40 to R46). -/
def State.sce (s : State) : Bool := s.efer.getLsbD 0
def State.lme (s : State) : Bool := s.efer.getLsbD 8
def State.lma (s : State) : Bool := s.efer.getLsbD 10
def State.nxe (s : State) : Bool := s.efer.getLsbD 11
def State.svme (s : State) : Bool := s.efer.getLsbD 12
def State.lmsle (s : State) : Bool := s.efer.getLsbD 13
def State.ffxsr (s : State) : Bool := s.efer.getLsbD 14

/-- Modes (R48 to R51). -/
def State.realMode (s : State) : Bool := !s.pe
def State.protectedMode (s : State) : Bool := s.pe
def State.pagingEnabled (s : State) : Bool := s.pg
def State.longModeActive (s : State) : Bool := s.lma
def State.legacyMode (s : State) : Bool := !s.lma
def State.mode64 (s : State) : Bool := s.lma && s.csL
def State.compatMode (s : State) : Bool := s.lma && !s.csL

/-- What the mode makes of code (30_encoding.md R107): 64-bit mode; real mode, 16-bit; else by the code segment's D bit.
That D = 1 gives 32 bits and D = 0 gives 16 is PRESUMED, the family's: R107 says only that the size is "according to"
the bit (notes/assumptions/44.md).
Virtual-8086 mode is not modelled (decision D17) and is not told apart here. -/
def State.codeSize (s : State) : CodeSize :=
  if s.mode64 then .c64 else if s.realMode then .c16 else if s.csD then .c32 else .c16

/-- The default operand size in bits (30_encoding.md R107). -/
def State.operandBits (s : State) : Nat := s.codeSize.operandBits

/-- The privilege level a gate is evaluated with: 0 in real mode (42_cr4_gated.md, opening; 93 G5). -/
def State.gateCpl (s : State) : Fin 4 := if s.realMode then 0 else s.cpl

/-- CPL ≤ IOPL (42_cr4_gated.md R140, R141). -/
def State.ioAllowed (s : State) : Bool := decide (s.cpl.val ≤ s.rflags.iopl.toNat)

/-- A superpage is 2 MB (R31, 20_memory.md R76). -/
def superpageBytes : Nat := 0x200000

/-- The superpage size available, if any: with PAE, whatever PSE is (R31, 20_memory.md R76). -/
def State.superpage (s : State) : Option Nat := if s.pae then some superpageBytes else .none

/-- Page-size extensions are enabled (R30, 20_memory.md R75). -/
def State.pageSizeExtensions (s : State) : Bool := s.pse

/-- No-execute page protection is enabled (R43, 20_memory.md R79). -/
def State.noExecute (s : State) : Bool := s.nxe

/-- The limit checks of 64-bit mode are enabled (R45, 20_memory.md R94). -/
def State.limitChecks (s : State) : Bool := s.lmsle && s.mode64

/-- Global pages are in force: PGE = 1 and paging on (20_memory.md R78). -/
def State.globalPages (s : State) : Bool := s.pge && s.pg

/-- The I/O breakpoint capability (42_cr4_gated.md R157). -/
def State.ioBreakpoints (s : State) : Bool := s.de

/-- VIF and VIP have hardware support: VME in virtual-8086 mode, PVI in protected mode (R53). DESIGN CHOICE: PVI gives none
while rFLAGS.VM = 1, although R48 makes CR0.PE = 1 alone protected mode (notes/assumptions/48.md). -/
def State.virtualInterrupts (s : State) : Bool :=
  (s.vme && s.rflags.vm) || (s.pvi && s.protectedMode && !s.rflags.vm)

end Sys2Proof.Machine
end

