-- ==== Sys2Proof/Machine/Ops.lean ====
section
/-! DEFINITION. The named operations over the state: the field updates, sparse stores and memory, free values, raising
and taking an exception, translation, and the register operations two families share. -/

namespace Sys2Proof.Machine

/-- An outcome with a value in place of a next state. -/
abbrev Result (α : Type) := Host.Outcome α Fault Refusal

/-- First `o`, then `k` of its value; a fault or a refusal ends both. -/
def andThen {α β : Type} (o : Result α) (k : α → Result β) : Result β :=
  match o with
  | .next a => k a
  | .fault f => .fault f
  | .refused r => .refused r

/-! Field updates. -/

def State.setCr0 (s : State) (v : Word) : State := { s with cr0 := v }
def State.setCr2 (s : State) (v : Word) : State := { s with cr2 := v }
def State.setCr3 (s : State) (v : Word) : State := { s with cr3 := v }
def State.setCr4 (s : State) (v : Word) : State := { s with cr4 := v }
def State.setEfer (s : State) (v : Word) : State := { s with efer := v }
def State.setIf (s : State) (b : Bool) : State := { s with rflags := { s.rflags with ifl := b } }
def State.setVif (s : State) (b : Bool) : State := { s with rflags := { s.rflags with vif := b } }
def State.setDr6 (s : State) (v : Word) : State := { s with dr6 := v }
def State.setDr7 (s : State) (v : Word) : State := { s with dr7 := v }
def State.setTsc (s : State) (v : Word) : State := { s with tsc := v }
def State.setPerf (s : State) (v : List (Nat × Word)) : State := { s with perf := v }
def State.setXcr0 (s : State) (v : Word) : State := { s with xcr0 := v }
def State.setMcBanks (s : State) (v : List (Nat × McBank)) : State := { s with mcBanks := v }
def State.setMedia (s : State) (v : Media) : State := { s with media := v }
def State.setTlb (s : State) (v : List TlbEntry) : State := { s with tlb := v }
def State.setMem (s : State) (v : List Host.Cell) : State := { s with mem := v }
def State.setCsL (s : State) (b : Bool) : State := { s with csL := b }
def State.setCsD (s : State) (b : Bool) : State := { s with csD := b }
def State.setGuestRunning (s : State) (b : Bool) : State := { s with guestRunning := b }
def State.setCode (s : State) (v : List Byte) : State := { s with code := v }
def State.setSchedule (s : State) (v : List Turn) : State := { s with schedule := v }
def State.setRaised (s : State) (v : Option Fault) : State := { s with raised := v }
def State.setAnswer (s : State) (v : Answer) : State := { s with answer := v }
def State.setDraws (s : State) (v : Nat) : State := { s with draws := v }

/-- A register number fits the register file. -/
theorem gprIndex (r : BitVec 4) : r.toNat < 16 := r.isLt

/-- `x[r]` (00_scope.md section 5.1). -/
def State.getGpr (s : State) (r : BitVec 4) : Word := s.gpr[r.toNat]'(gprIndex r)

/-- `x[r] <- v`. -/
def State.setGpr (s : State) (r : BitVec 4) (v : Word) : State :=
  { s with gpr := s.gpr.set r.toNat v (gprIndex r) }

/-! Sparse stores: lists of (key, value), keys strictly rising, no value equal to the default. -/

/-- What key `a` holds; `d` where it is not listed. -/
def storeGet {α : Type} (d : α) : List (Nat × α) → Nat → α
  | [], _ => d
  | (k, v) :: t, a => if k = a then v else storeGet d t a

/-- The store with `v` at key `a`; writing the default removes the entry. -/
def storePut {α : Type} [DecidableEq α] (d : α) : List (Nat × α) → Nat → α → List (Nat × α)
  | [], a, v => if v = d then [] else [(a, v)]
  | (k, w) :: t, a, v =>
    if a < k then (if v = d then (k, w) :: t else (a, v) :: (k, w) :: t)
    else if a = k then (if v = d then t else (a, v) :: t)
    else (k, w) :: storePut d t a v

/-- The canonical form. -/
def storeWf {α : Type} [DecidableEq α] (d : α) (l : List (Nat × α)) : Bool :=
  decide (l.Pairwise fun p q => p.1 < q.1) && l.all fun p => decide (p.2 ≠ d)

/-- What an unlisted byte of memory reads as. DESIGN CHOICE (notes/assumptions/20.md). -/
def memDefault : Byte := 0#8

/-- Memory is in its canonical form. -/
def Memory.wf (m : List Host.Cell) : Bool := storeWf memDefault m

/-- `MemRead(a, 1)`. -/
def memRead (m : List Host.Cell) (a : Nat) : Byte := storeGet memDefault m a

/-- `MemWrite(a, 1, b)`. -/
def memWrite (m : List Host.Cell) (a : Nat) (b : Byte) : List Host.Cell := storePut memDefault m a b

/-- Writes byte `f i` at `addr i` for every `i < n`, in ascending order; `none` leaves the byte. -/
def memStoreImage (addr : Nat → Nat) (f : Nat → Option Byte) : Nat → List Host.Cell → List Host.Cell
  | 0, m => m
  | n + 1, m =>
    match f n with
    | some b => memWrite (memStoreImage addr f n m) (addr n) b
    | .none => memStoreImage addr f n m

/-- A performance counter nothing has read holds 0, and a bank nothing has written empty contents
(notes/assumptions/10.md). -/
def perfDefault : Word := 0#64
def bankDefault : McBank := ⟨0, 0⟩

/-! Free values (notes/assumptions/12.md). -/

/-- `k` more free values have been drawn. -/
def State.drawn (s : State) (k : Nat) : State := s.setDraws (s.draws + k)

/-! Exceptions. The spec describes no entry: a raise ends the operation and the run with the state unchanged
(60_exceptions.md R190), and there is no return (R191). -/

/-- `raise E`: the outcome `Fault(E)` (00_scope.md section 5.1). -/
def raise {α : Type} (f : Fault) : Result α := .fault f

/-- An exception of a hardware event, taken after the event's own writes to the state: the run stops with it at the
next step (20_memory.md R80, 60_exceptions.md R183, R190; notes/assumptions/24.md). -/
def State.take (s : State) (f : Fault) : State := s.setRaised (some f)

/-- The operation needs CPL = 0 (40_cr_access.md R110, decision D10). -/
def requireCpl0 {α : Type} (s : State) (o : Result α) : Result α :=
  if s.cpl = 0 then o else raise .notPermitted

/-- A gate is refused in virtual-8086 mode (decision D17, 60_exceptions.md R194). -/
def outsideVirtual8086 {α : Type} (s : State) (o : Result α) : Result α :=
  if s.rflags.vm then .refused .virtual8086ModeNotModelled else o

/-! The abstract operation's answer. -/

/-- The operation is done and returns nothing. -/
def State.done (s : State) : Result State := .next (s.setAnswer .nothing)

/-- The gate answers `Permitted`; the data path, if any, is `s` (00_scope.md R7). -/
def State.permit (s : State) : Result State := .next (s.setAnswer .permitted)

/-- The operation returns `v`. -/
def State.giveValue (s : State) (v : Word) : Result State := .next (s.setAnswer (.value v))

/-! Addresses. -/

/-- The linear address an instruction's own memory operand gives: 64 bits in 64-bit mode, 32 bits zero-extended elsewhere.
PRESUMED: the family's; 20_memory.md R70 and 44_families_not_described.md R234 give no width (notes/assumptions/46.md). -/
def State.dataLinear (s : State) (a : Word) : Word := if s.mode64 then a else zext64 (low32 a)

/-- What a translation sees of the state: the paging fields, memory, the TLB and the draw (20_memory.md R72 to R82). -/
def State.pagingView (s : State) : PagingView where
  tableField := s.cr3 &&& ~~~0x18#64
  pse  := s.pse
  pae  := s.pae
  pge  := s.pge
  lma  := s.lma
  nxe  := s.nxe
  mem  := s.mem
  tlb  := s.tlb
  draw := s.draws

/-- The physical address of a linear address: itself while paging is off (20_memory.md R71), a free value while it is
on (91 N12). -/
def State.translate (s : State) (linear : Word) : Word :=
  if s.pg then Config.walk s.pagingView linear else linear

end Sys2Proof.Machine
end

