-- ==== Sys2Proof/Machine/Operands.lean ====
section
/-! DEFINITION. The operand forms: a general register at the operand size of the mode, EDX:EAX and ECX, and a memory
image (30_encoding.md R102, R103; 40_cr_access.md R121, R122). -/

namespace Sys2Proof.Machine

/-- Register numbers (30_encoding.md R102). -/
def eax : BitVec 4 := 0#4
def ecx : BitVec 4 := 1#4
def edx : BitVec 4 := 2#4
def ebx : BitVec 4 := 3#4

/-- The value of source register `r`: 64 bits in 64-bit mode, else the low 32 zero-extended (40_cr_access.md R122). -/
def State.srcReg (s : State) (r : BitVec 4) : Word :=
  if s.mode64 then s.getGpr r else zext64 (low32 (s.getGpr r))

/-- Destination register `r` gets `v`: 64 bits in 64-bit mode, else its low 32 with the upper half zeroed
(40_cr_access.md R121). -/
def State.dstReg (s : State) (r : BitVec 4) (v : Word) : State :=
  s.setGpr r (if s.mode64 then v else zext64 (low32 v))

/-- The 32-bit register `r`. -/
def State.reg32 (s : State) (r : BitVec 4) : BitVec 32 := low32 (s.getGpr r)

/-- A 32-bit register gets `v`, its upper half zeroed, in every mode (notes/assumptions/35.md). -/
def State.setReg32 (s : State) (r : BitVec 4) (v : BitVec 32) : State := s.setGpr r (zext64 v)

/-- EDX:EAX, the high half in EDX (30_encoding.md R103). -/
def State.edxEax (s : State) : Word := s.reg32 edx ++ s.reg32 eax

/-- EDX:EAX gets `v`, the upper halves of both registers zeroed. 41_efer_access.md R134 says so of RDMSR in 64-bit mode;
in other modes, and for the other instructions that write EDX:EAX, it is PRESUMED (notes/assumptions/35.md). -/
def State.setEdxEax (s : State) (v : Word) : State :=
  (s.setReg32 edx (high32 v)).setReg32 eax (low32 v)

/-- The linear address of a memory operand: free (44_families_not_described.md R234). -/
def State.memAddress (s : State) (op : MemOperand) : Word := Config.effectiveAddress op s.gpr s.draws

/-- The physical address of byte `i` of the image at a memory operand. DESIGN CHOICE: the image is contiguous in linear
addresses from the operand's on, wrapping at the linear width, and each byte is translated for itself;
44_families_not_described.md R234 gives no layout and 20_memory.md R70 no width. It gives no alignment either, and every
address is taken: FXSAVE, FXRSTOR, XSAVE and XRSTOR check none (DESIGN CHOICE; notes/assumptions/46.md). -/
def State.imageAddress (s : State) (op : MemOperand) (i : Nat) : Nat :=
  (s.translate (s.dataLinear (s.memAddress op + BitVec.ofNat 64 i))).toNat

/-- The first `n` bytes of the image at a memory operand. -/
def State.imageBytes (s : State) (op : MemOperand) (n : Nat) : List Byte :=
  (List.range n).map fun i => memRead s.mem (s.imageAddress op i)

end Sys2Proof.Machine
end

