-- ==== Sys2Proof/Machine/ControlRegs.lean ====
section
/-! DEFINITION. Control-register access (40_cr_access.md): ReadCR, WriteCR, MOV r,CRn and MOV CRn,r. -/

namespace Sys2Proof.Machine

/-- `ReadCR(n)` (40_cr_access.md R113, R114, R115, R117, R120). CR5 to CR7 raise #UD (30_encoding.md R106;
notes/assumptions/7.md). -/
def readCr (n : Nat) (s : State) : Result Word :=
  match n with
  | 0 => requireCpl0 s (.next s.cr0)
  | 1 => .refused .cr1Reserved
  | 2 => requireCpl0 s (.next s.cr2)
  | 3 => requireCpl0 s (.next s.cr3)
  | 4 => requireCpl0 s (.next s.cr4)
  | 5 => raise .invalidOpcode
  | 6 => raise .invalidOpcode
  | 7 => raise .invalidOpcode
  | n => .refused (.crOutsideSpec n)

/-- What `WriteCR(0, v)` leaves: bit 4 as it was, EFER.LMA = EFER.LME & PG (40_cr_access.md R111, R112). -/
def State.afterCr0 (s : State) (v : Word) : State :=
  (s.setCr0 (withBit v 4 (s.cr0.getLsbD 4))).setEfer (withBit s.efer 10 (s.lme && v.getLsbD 31))

/-- `WriteCR(0, v)` (40_cr_access.md R111, R112), its checks in the listed order. -/
def writeCr0 (v : Word) (s : State) : Result State :=
  requireCpl0 s <|
    if high32 v ≠ 0#32 then .refused .reservedBits
    else if v.getLsbD 31 && !v.getLsbD 0 then raise .notPermitted
    else if v.getLsbD 31 && !s.pg && s.lme && !s.pae then raise .notPermitted
    else if !v.getLsbD 31 && s.pg && s.mode64 then .refused .leavingLongModeFrom64BitMode
    else .next (s.afterCr0 v)

/-- `WriteCR(2, v)` (40_cr_access.md R118). -/
def writeCr2 (v : Word) (s : State) : Result State := requireCpl0 s (.next (s.setCr2 v))

/-- The TLB entries an update of CR3 keeps (20_memory.md R78, 40_cr_access.md R116). -/
def State.tlbAfterCr3 (s : State) : List TlbEntry :=
  if s.pge then s.tlb.filter fun e => e.isGlobal else []

/-- `WriteCR(3, v)` (40_cr_access.md R116), its checks in the listed order. -/
def writeCr3 (v : Word) (s : State) : Result State :=
  requireCpl0 s <|
    if s.lma then .refused .cr3LongModeFormatNotInSource
    else if high32 v ≠ 0#32 then .refused .reservedBits
    else if v.extractLsb' 0 3 ≠ 0#3 then .refused .reservedBits
    else if !s.pae && v.extractLsb' 5 7 != 0#7 then .refused .reservedBits
    else .next ((s.setCr3 v).setTlb s.tlbAfterCr3)

/-- CR3 under the CR4 value `v`: bits 11:5 are unnamed while PAE = 0 and read 0 (10_state.md R24, R64, decision D5; that a
CR4 write clearing PAE clears them is notes/assumptions/34.md). -/
def cr3Under (v cr3 : Word) : Word := if v.getLsbD 5 then cr3 else cr3 &&& ~~~0xFE0#64

/-- `WriteCR(4, v)` (40_cr_access.md R119), its checks in the listed order; with PAE clear CR3[11:5] are 0 after it
(10_state.md R64). -/
def writeCr4 (v : Word) (s : State) : Result State :=
  requireCpl0 s <|
    if v &&& ~~~cr4Named ≠ 0#64 then .refused .reservedBits
    else if v.getLsbD 18 && !s.params.hasXsave then .refused .featureAbsent
    else if s.lma && !v.getLsbD 5 then raise .notPermitted
    else .next ((s.setCr4 v).setCr3 (cr3Under v s.cr3))

/-- `WriteCR(n, v)`. -/
def writeCr (n : Nat) (v : Word) (s : State) : Result State :=
  match n with
  | 0 => writeCr0 v s
  | 1 => .refused .cr1Reserved
  | 2 => writeCr2 v s
  | 3 => writeCr3 v s
  | 4 => writeCr4 v s
  | 5 => raise .invalidOpcode
  | 6 => raise .invalidOpcode
  | 7 => raise .invalidOpcode
  | n => .refused (.crOutsideSpec n)

/-- MOV r, CRn (40_cr_access.md R121); `m` is ignored (30_encoding.md R102). -/
def execMovRCr (_m : BitVec 2) (n r : BitVec 4) (s : State) : Host.Outcome State Fault Refusal :=
  andThen (readCr n.toNat s) fun t => (s.dstReg r t).giveValue t

/-- MOV CRn, r (40_cr_access.md R122); `m` is ignored (30_encoding.md R102). -/
def execMovCrR (_m : BitVec 2) (n r : BitVec 4) (s : State) : Host.Outcome State Fault Refusal :=
  andThen (writeCr n.toNat (s.srcReg r) s) State.done

end Sys2Proof.Machine
end

