-- ==== Sys2Proof/Machine/Counters.lean ====
section
/-! DEFINITION. The counters (42_cr4_gated.md sections 2 and 4): RDTSC, RDTSCP, RDPMC. What a counter holds when it is
read is a free value (10_state.md R56, R57, decision D27). -/

namespace Sys2Proof.Machine

/-- The gate of RDTSC and RDTSCP (42_cr4_gated.md R144, R145). -/
def tscGate (s : State) (o : Result State) : Result State :=
  outsideVirtual8086 s <| if s.tsd && s.gateCpl != 0 then raise .notPermitted else o

/-- The time-stamp counter is read: it holds a free value, which goes to EDX:EAX (30_encoding.md R103). -/
def State.readTsc (s : State) : State :=
  (s.setTsc (Config.freeWord s.draws)).setEdxEax (Config.freeWord s.draws)

/-- RDTSC (42_cr4_gated.md R144). -/
def execRdtsc (s : State) : Host.Outcome State Fault Refusal :=
  tscGate s ((s.readTsc.drawn 1).giveValue (Config.freeWord s.draws))

/-- RDTSCP (42_cr4_gated.md R145): as RDTSC, and a processor id, a second free value, goes to ECX
(notes/assumptions/31.md). -/
def execRdtscp (s : State) : Host.Outcome State Fault Refusal :=
  tscGate s (((s.readTsc.setReg32 ecx (low32 (Config.freeWord (s.draws + 1)))).drawn 2).giveValue
    (Config.freeWord s.draws))

/-- The counter ECX selects is read: it holds a free value, which goes to EDX:EAX. -/
def State.readPerf (s : State) : State :=
  (s.setPerf (storePut perfDefault s.perf (s.reg32 ecx).toNat (Config.freeWord s.draws))).setEdxEax
    (Config.freeWord s.draws)

/-- RDPMC (42_cr4_gated.md R148). -/
def execRdpmc (s : State) : Host.Outcome State Fault Refusal :=
  outsideVirtual8086 s <|
    if !s.pce && s.gateCpl != 0 then raise .notPermitted
    else (s.readPerf.drawn 1).giveValue (Config.freeWord s.draws)

end Sys2Proof.Machine
end

