-- ==== Sys2Proof/Machine/Cpuid.lean ====
section
/-! DEFINITION. CPUID (43_efer_gated.md R174): results fixed for the processor (00_scope.md R6); function 8000_0001h
tells the features, at the bits R174 gives. PRESUMED, the family's: the function number is taken from EAX, and results
besides those R174 names go to EAX and EBX (notes/assumptions/30.md). -/

namespace Sys2Proof.Machine

/-- The function whose result carries the extended-feature flags. -/
def featureFunction : BitVec 32 := 0x80000001#32

/-- `v` with bit `k` replaced by `b`. -/
def withBit32 (v : BitVec 32) (k : Nat) (b : Bool) : BitVec 32 :=
  if b then v ||| (1#32 <<< k) else v &&& ~~~(1#32 <<< k)

/-- CPUID's result in EDX: NX in bit 20, FFXSR in bit 25, long mode in bit 29 (43_efer_gated.md R174). -/
def State.cpuidEdx (s : State) : BitVec 32 :=
  if s.reg32 eax = featureFunction then
    withBit32 (withBit32 (withBit32 (Config.cpuidEdx (s.reg32 eax) (s.reg32 ecx)) 20 s.params.hasNx)
      25 s.params.hasFfxsr) 29 s.params.hasLm
  else Config.cpuidEdx (s.reg32 eax) (s.reg32 ecx)

/-- CPUID's result in ECX: SVM in bit 2 (43_efer_gated.md R174). -/
def State.cpuidEcx (s : State) : BitVec 32 :=
  if s.reg32 eax = featureFunction then
    withBit32 (Config.cpuidEcx (s.reg32 eax) (s.reg32 ecx)) 2 s.params.hasSvm
  else Config.cpuidEcx (s.reg32 eax) (s.reg32 ecx)

/-- CPUID (43_efer_gated.md R174). PRESUMED: the function number in EAX, a further input in ECX, and results in EAX,
EBX, ECX and EDX, their upper halves zeroed; R174 and 30_encoding.md R103 name a register only for the feature flags,
in ECX and EDX (notes/assumptions/30.md, 35.md). -/
def execCpuid (s : State) : Host.Outcome State Fault Refusal :=
  outsideVirtual8086 s
    ((((s.setReg32 eax (Config.cpuidEax (s.reg32 eax) (s.reg32 ecx))).setReg32 ebx
      (Config.cpuidEbx (s.reg32 eax) (s.reg32 ecx))).setReg32 ecx s.cpuidEcx).setReg32 edx s.cpuidEdx).permit

end Sys2Proof.Machine
end

