-- ==== Sys2Proof/Machine/DebugRegs.lean ====
section
/-! DEFINITION. The debug registers (42_cr4_gated.md section 3): MOV r,DRn and MOV DRn,r. -/

namespace Sys2Proof.Machine

/-- The fault of an access to DR4 or DR5 while DE = 1: #UD, and above privilege level 0 either #UD or `NotPermitted`
(42_cr4_gated.md R146, 60_exceptions.md R189). -/
def reservedDebugFault (s : State) : Fault :=
  if s.gateCpl != 0 && Config.freeChoice s.draws then .notPermitted else .invalidOpcode

/-- Access by the names DR4 and DR5 (10_state.md R55). -/
def debugAlias {α : Type} (s : State) (o : Result α) : Result α :=
  if s.de then raise (reservedDebugFault s) else o

/-- `ReadDR(n)` (42_cr4_gated.md R146). -/
def readDr (n : Nat) (s : State) : Result Word :=
  outsideVirtual8086 s <| match n with
  | 4 => debugAlias s (.next s.dr6)
  | 5 => debugAlias s (.next s.dr7)
  | 6 => .next s.dr6
  | 7 => .next s.dr7
  | n => .refused (.drOutsideSpec n)

/-- `WriteDR(n, v)` (42_cr4_gated.md R147); DR6 and DR7 hold `v` opaquely. -/
def writeDr (n : Nat) (v : Word) (s : State) : Result State :=
  outsideVirtual8086 s <| match n with
  | 4 => debugAlias s (.next (s.setDr6 v))
  | 5 => debugAlias s (.next (s.setDr7 v))
  | 6 => .next (s.setDr6 v)
  | 7 => .next (s.setDr7 v)
  | n => .refused (.drOutsideSpec n)

/-- MOV r, DRn (42_cr4_gated.md R146, 30_encoding.md R102); `m` is ignored. -/
def execMovRDr (_m : BitVec 2) (n r : BitVec 4) (s : State) : Host.Outcome State Fault Refusal :=
  andThen (readDr n.toNat s) fun t => (s.dstReg r t).giveValue t

/-- MOV DRn, r (42_cr4_gated.md R147, 30_encoding.md R102); `m` is ignored. -/
def execMovDrR (_m : BitVec 2) (n r : BitVec 4) (s : State) : Host.Outcome State Fault Refusal :=
  andThen (writeDr n.toNat (s.srcReg r) s) State.done

end Sys2Proof.Machine
end

