-- ==== Sys2Proof/Machine/Efer.lean ====
section
/-! DEFINITION. EFER access (41_efer_access.md): ReadEFER, WriteEFER, RDMSR and WRMSR. -/

namespace Sys2Proof.Machine

/-- `ReadEFER()` (41_efer_access.md R130). -/
def readEfer (s : State) : Result Word := requireCpl0 s (.next s.efer)

/-- Some bit `WriteEFER(v)` sets belongs to a feature the processor lacks (41_efer_access.md R131). -/
def State.eferFeatureAbsent (s : State) (v : Word) : Bool :=
  (v.getLsbD 8 && !s.params.hasLm) || (v.getLsbD 11 && !s.params.hasNx) ||
    (v.getLsbD 14 && !s.params.hasFfxsr) ||
    (v.getLsbD 12 && (!s.params.hasSvm || s.vmCr.svmeDisable))

/-- `WriteEFER(v)` (41_efer_access.md R131, R132, R133, R136), its checks in the listed order. -/
def writeEfer (v : Word) (s : State) : Result State :=
  requireCpl0 s <|
    if v &&& ~~~eferNamed ≠ 0#64 then .refused .reservedBits
    else if v.getLsbD 10 != s.lma then .refused .writeChangesReadOnlyLma
    else if v.getLsbD 8 != s.lme && s.pg then raise .notPermitted
    else if s.eferFeatureAbsent v then .refused .featureAbsent
    else if !v.getLsbD 12 && s.svme && s.guestRunning then .refused .undefinedSvmeOffWhileGuestRuns
    else .next (s.setEfer v)

/-- RDMSR (41_efer_access.md R134; that the upper halves are zeroed outside 64-bit mode too is PRESUMED,
notes/assumptions/35.md). -/
def execRdmsr (s : State) : Host.Outcome State Fault Refusal :=
  if s.reg32 ecx = eferMsr then andThen (readEfer s) fun t => (s.setEdxEax t).giveValue t
  else .refused (.msrOutsideSpec (s.reg32 ecx))

/-- WRMSR (41_efer_access.md R135). -/
def execWrmsr (s : State) : Host.Outcome State Fault Refusal :=
  if s.reg32 ecx = eferMsr then andThen (writeEfer s.edxEax s) State.done
  else .refused (.msrOutsideSpec (s.reg32 ecx))

end Sys2Proof.Machine
end

