-- ==== Sys2Proof/Machine/InterruptFlag.lean ====
section
/-! DEFINITION. The interrupt-flag instructions (42_cr4_gated.md section 1): CLI, STI, INT n, and the class of other
instructions that manipulate rFLAGS.IF. -/

namespace Sys2Proof.Machine

/-- CLI (42_cr4_gated.md R140). -/
def execCli (s : State) : Host.Outcome State Fault Refusal :=
  outsideVirtual8086 s <|
    if s.realMode || s.ioAllowed then (s.setIf false).done
    else if s.pvi && s.cpl == 3 then (s.setVif false).done
    else raise .notPermitted

/-- STI (42_cr4_gated.md R141). -/
def execSti (s : State) : Host.Outcome State Fault Refusal :=
  outsideVirtual8086 s <|
    if s.realMode || s.ioAllowed then (s.setIf true).done
    else if s.pvi && s.cpl == 3 then
      if s.rflags.vip then raise .notPermitted else (s.setVif true).done
    else raise .notPermitted

/-- INT n (42_cr4_gated.md R142): the gate; delivery is not in the spec (60_exceptions.md R188). -/
def execInt (_i : Byte) (s : State) : Host.Outcome State Fault Refusal :=
  outsideVirtual8086 s s.permit

/-- Another instruction that manipulates rFLAGS.IF (42_cr4_gated.md R143). -/
def takeIfInsn (s : State) : Result State := outsideVirtual8086 s s.permit

end Sys2Proof.Machine
end

