-- ==== Sys2Proof/Machine/MediaState.lean ====
section
/-! DEFINITION. The media classes, FXSAVE and FXRSTOR (42_cr4_gated.md section 5). The place, size and layout of the
image are not in the spec and are free (notes/assumptions/17.md, 18.md). -/

namespace Sys2Proof.Machine

/-- FFXSR takes effect: 64-bit mode at CPL 0 (10_state.md R46). -/
def State.fastFx (s : State) : Bool := s.ffxsr && s.mode64 && s.gateCpl == 0

/-- The components FXSAVE saves and FXRSTOR restores (42_cr4_gated.md R150, R151). -/
def State.fxMoved (s : State) : List Component :=
  if s.osfxsr then (if s.fastFx then [.x87, .mmx, .mxcsr] else [.x87, .mmx, .mxcsr, .xmm])
  else [.x87, .mmx]

/-- The components of which the spec does not say whether they are moved (42_cr4_gated.md R150, R151, 93 U12). -/
def State.fxUnstated (s : State) : List Component := if s.osfxsr then [] else [.mxcsr, .xmm]

/-- The byte FXSAVE stores at offset `i` of the image: a free value (93 U11), or none where the byte belongs to a
component that is not saved, which keeps its memory content (42_cr4_gated.md R150 corner (b)). -/
def State.fxByte (s : State) (i : Nat) : Option Byte :=
  match Config.fxImageOwner i with
  | some c =>
    if c ∈ s.fxMoved ∨ c ∈ s.fxUnstated then some (Config.freeByte s.draws i) else .none
  | .none => some (Config.freeByte s.draws i)

/-- FXSAVE (42_cr4_gated.md R150). -/
def execFxsave (op : MemOperand) (s : State) : Host.Outcome State Fault Refusal :=
  outsideVirtual8086 s <|
    .next (((s.setMem (memStoreImage (s.imageAddress op) s.fxByte Config.fxImageBytes s.mem)).drawn 1).setAnswer
      (.moved s.fxMoved))

/-- What place `j` of component `c` holds after FXRSTOR, given what it held: loaded from the image, free where the
spec does not say, else kept (42_cr4_gated.md R151). DESIGN CHOICE: the image it reads has the bytes of FXSAVE's
(`Config.fxImageBytes`), in every mode; R151 and 44_families_not_described.md R234 give no size
(notes/assumptions/18.md). -/
def State.fxRestored (s : State) (op : MemOperand) (c : Component) (j : Nat) (old : Content) : Content :=
  if c ∈ s.fxMoved then Config.fxLoad c j (s.imageBytes op Config.fxImageBytes)
  else if c ∈ s.fxUnstated then Config.freeContent s.draws j
  else old

/-- The media state FXRSTOR leaves. The free MXCSR and the free XMM registers take places of their own. -/
def State.fxMedia (s : State) (op : MemOperand) : Media :=
  { s.media with
    x87 := s.fxRestored op .x87 0 s.media.x87
    mmx := s.fxRestored op .mmx 0 s.media.mmx
    mxcsr := s.fxRestored op .mxcsr 16 s.media.mxcsr
    xmm := Vector.ofFn fun j => s.fxRestored op .xmm j.val (s.media.xmm[j]) }

/-- FXRSTOR (42_cr4_gated.md R151). -/
def execFxrstor (op : MemOperand) (s : State) : Host.Outcome State Fault Refusal :=
  outsideVirtual8086 s (.next (((s.setMedia (s.fxMedia op)).drawn 1).setAnswer (.moved s.fxMoved)))

/-- The media state with every SSE register free, from draw `s.draws`. -/
def State.freeSse (s : State) : Media :=
  { s.media with
    mxcsr := Config.freeContent s.draws 16
    xmm := Vector.ofFn fun j => Config.freeContent s.draws j.val
    ymm := Config.freeContent s.draws 17 }

/-- A media instruction of either class (42_cr4_gated.md R149): the gate; what it computes is not in the spec, so the
SSE registers are free after it (notes/assumptions/33.md). -/
def takeMediaInsn (_w : MediaWidth) (s : State) : Result State :=
  outsideVirtual8086 s <|
    if !s.osfxsr then raise .invalidOpcode else ((s.setMedia s.freeSse).drawn 1).permit

/-- An unmasked media floating-point error (42_cr4_gated.md R152). -/
def takeMediaFpError (w : MediaWidth) (s : State) : Result State :=
  outsideVirtual8086 s <|
    if s.osxmmexcpt then raise .simdFloatingPoint
    else match w with
      | .w128 => raise .invalidOpcode
      | .w256 =>
        match s.params.xf256 with
        | .refuse => .refused .xf256WhenOsxmmexcpt0
        | .invalidOpcode => raise .invalidOpcode

end Sys2Proof.Machine
end

