-- ==== Sys2Proof/Machine/Svm.lean ====
section
/-! DEFINITION. The SVM instructions (43_efer_gated.md R172): the gate; what each does is not in the spec (00_scope.md
section 3.2; notes/assumptions/32.md). -/

namespace Sys2Proof.Machine

/-- The gate of every SVM instruction (43_efer_gated.md R172). -/
def svmGate (s : State) (o : Result State) : Result State :=
  outsideVirtual8086 s (if s.svme then o else raise .invalidOpcode)

/-- VMRUN. -/
def execVmrun (s : State) : Host.Outcome State Fault Refusal := svmGate s s.permit

/-- VMMCALL. -/
def execVmmcall (s : State) : Host.Outcome State Fault Refusal := svmGate s s.permit

/-- VMLOAD. -/
def execVmload (s : State) : Host.Outcome State Fault Refusal := svmGate s s.permit

/-- VMSAVE. -/
def execVmsave (s : State) : Host.Outcome State Fault Refusal := svmGate s s.permit

/-- STGI. -/
def execStgi (s : State) : Host.Outcome State Fault Refusal := svmGate s s.permit

/-- CLGI. -/
def execClgi (s : State) : Host.Outcome State Fault Refusal := svmGate s s.permit

/-- SKINIT. -/
def execSkinit (s : State) : Host.Outcome State Fault Refusal := svmGate s s.permit

/-- INVLPGA. -/
def execInvlpga (s : State) : Host.Outcome State Fault Refusal := svmGate s s.permit

end Sys2Proof.Machine
end

