-- ==== Sys2Proof/Machine/SystemCall.lean ====
section
/-! DEFINITION. SYSCALL and SYSRET (43_efer_gated.md R170, R171): the gates; where they transfer control and what they
save is not in the spec (00_scope.md section 3.2; notes/assumptions/32.md). -/

namespace Sys2Proof.Machine

/-- SYSCALL (43_efer_gated.md R170). -/
def execSyscall (s : State) : Host.Outcome State Fault Refusal :=
  outsideVirtual8086 s (if !s.sce then raise .notPermitted else s.permit)

/-- SYSRET (43_efer_gated.md R171). -/
def execSysret (s : State) : Host.Outcome State Fault Refusal :=
  outsideVirtual8086 s <|
    if !s.sce then raise .notPermitted
    else if s.gateCpl != 0 then raise .notPermitted
    else s.permit

end Sys2Proof.Machine
end

