-- ==== Sys2Proof/Machine/Xsave.lean ====
section
/-! DEFINITION. The XSAVE family (42_cr4_gated.md section 6): XGETBV, XSETBV, XSAVE, XRSTOR. -/

namespace Sys2Proof.Machine

/-- The family needs CR4.OSXSAVE = 1 (42_cr4_gated.md R153 to R156). -/
def requireOsxsave (s : State) (o : Result State) : Result State :=
  outsideVirtual8086 s (if s.osxsave then o else raise .notPermitted)

/-- XGETBV (42_cr4_gated.md R153): XCR0 is read, the value free (93 U11), to EDX:EAX (30_encoding.md R103). -/
def execXgetbv (s : State) : Host.Outcome State Fault Refusal :=
  requireOsxsave s (((s.setEdxEax (Config.xcrRead (s.reg32 ecx) s.xcr0 s.draws)).drawn 1).giveValue
    (Config.xcrRead (s.reg32 ecx) s.xcr0 s.draws))

/-- What XCR0 holds after XSETBV: a free value when ECX names it (30_encoding.md R103), since which values it accepts is
not in the spec and the model stores nothing (42_cr4_gated.md R154; notes/assumptions/15.md). -/
def State.xcr0Written (s : State) : Word :=
  if s.reg32 ecx = 0#32 then Config.xcrWritten s.xcr0 s.edxEax s.draws else s.xcr0

/-- XSETBV (42_cr4_gated.md R154). -/
def execXsetbv (s : State) : Host.Outcome State Fault Refusal :=
  requireOsxsave s (if s.gateCpl != 0 then raise .notPermitted else ((s.setXcr0 s.xcr0Written).drawn 1).permit)

/-- XSAVE (42_cr4_gated.md R155): which components it saves is not in the spec, so every byte it may store is free. -/
def execXsave (op : MemOperand) (s : State) : Host.Outcome State Fault Refusal :=
  requireOsxsave s (((s.setMem (memStoreImage (s.imageAddress op)
    (fun i => some (Config.freeByte s.draws i)) (Config.xsaveBytes s.xcr0 s.edxEax) s.mem)).drawn 1).permit)

/-- What place `j` of the media state, holding `old`, holds after XRSTOR: free in the memory operand's image, the
component mask EDX:EAX and XCR0 (30_encoding.md R103, 42_cr4_gated.md R156). -/
def State.xRestored (s : State) (op : MemOperand) (j : Nat) (old : Content) : Content :=
  Config.xrstorLoad j old s.xcr0 s.edxEax (s.imageBytes op (Config.xsaveBytes s.xcr0 s.edxEax)) s.draws

/-- The media state XRSTOR leaves, each part in a place of its own. -/
def State.xMedia (s : State) (op : MemOperand) : Media where
  x87   := s.xRestored op 18 s.media.x87
  mmx   := s.xRestored op 19 s.media.mmx
  mxcsr := s.xRestored op 16 s.media.mxcsr
  xmm   := Vector.ofFn fun j => s.xRestored op j.val (s.media.xmm[j])
  ymm   := s.xRestored op 17 s.media.ymm
  ext   := s.xRestored op 20 s.media.ext

/-- XRSTOR (42_cr4_gated.md R156): which components it restores is not in the spec, so each is free after it. -/
def execXrstor (op : MemOperand) (s : State) : Host.Outcome State Fault Refusal :=
  requireOsxsave s (((s.setMedia (s.xMedia op)).drawn 1).permit)

end Sys2Proof.Machine
end

