-- ==== Sys2Proof/Machine/Dispatch.lean ====
section
/-! DEFINITION. The dispatch of every instruction of the opcode table to its meaning. -/

namespace Sys2Proof.Machine

def exec (i : Instr) (s : State) : Host.Outcome State Fault Refusal :=
  match i with
  | .movRCr m n r => Sys2Proof.Machine.execMovRCr m n r s
  | .movCrR m n r => Sys2Proof.Machine.execMovCrR m n r s
  | .rdmsr => Sys2Proof.Machine.execRdmsr s
  | .wrmsr => Sys2Proof.Machine.execWrmsr s
  | .cli => Sys2Proof.Machine.execCli s
  | .sti => Sys2Proof.Machine.execSti s
  | .int i8 => Sys2Proof.Machine.execInt i8 s
  | .rdtsc => Sys2Proof.Machine.execRdtsc s
  | .rdtscp => Sys2Proof.Machine.execRdtscp s
  | .movRDr m n r => Sys2Proof.Machine.execMovRDr m n r s
  | .movDrR m n r => Sys2Proof.Machine.execMovDrR m n r s
  | .rdpmc => Sys2Proof.Machine.execRdpmc s
  | .fxsave op => Sys2Proof.Machine.execFxsave op s
  | .fxrstor op => Sys2Proof.Machine.execFxrstor op s
  | .xgetbv => Sys2Proof.Machine.execXgetbv s
  | .xsetbv => Sys2Proof.Machine.execXsetbv s
  | .xsave op => Sys2Proof.Machine.execXsave op s
  | .xrstor op => Sys2Proof.Machine.execXrstor op s
  | .syscall => Sys2Proof.Machine.execSyscall s
  | .sysret => Sys2Proof.Machine.execSysret s
  | .vmrun => Sys2Proof.Machine.execVmrun s
  | .vmmcall => Sys2Proof.Machine.execVmmcall s
  | .vmload => Sys2Proof.Machine.execVmload s
  | .vmsave => Sys2Proof.Machine.execVmsave s
  | .stgi => Sys2Proof.Machine.execStgi s
  | .clgi => Sys2Proof.Machine.execClgi s
  | .skinit => Sys2Proof.Machine.execSkinit s
  | .invlpga => Sys2Proof.Machine.execInvlpga s
  | .cpuid => Sys2Proof.Machine.execCpuid s

end Sys2Proof.Machine
end

