-- ==== Sys2Proof/Machine/Paging.lean ====
section
/-! DEFINITION. What the spec settles of paging: the top-level table and its caching (20_memory.md R72 to R77), the
TLB's own steps (10_state.md R61, 20_memory.md R78) and the page fault (R80, 60_exceptions.md R182). -/

namespace Sys2Proof.Machine

/-- The base-address field of CR3 as a physical address: CR3[31:12] without PAE, CR3[31:5] with it in legacy mode
(10_state.md R22, R23). DESIGN CHOICE: it tests no mode, so that in long mode, where R24 says those formats must not be
assumed, its value means nothing; `State.topTable`, its one reader, answers none there (notes/assumptions/47.md). -/
def State.tableBase (s : State) : Word :=
  if s.pae then s.cr3 &&& 0xFFFFFFE0#64 else s.cr3 &&& 0xFFFFF000#64

/-- A top-level translation table. -/
structure TopTable where
  base       : Word
  entries    : Nat
  entryBytes : Nat
  levels     : Nat
  deriving DecidableEq, Repr

/-- The table translation starts at: none with paging off, or in long mode, whose paging is not in the spec
(20_memory.md R72, R73, R82). -/
def State.topTable (s : State) : Option TopTable :=
  if !s.pg || s.lma then .none
  else if s.pae then some ⟨s.tableBase, 4, 8, 3⟩
  else some ⟨s.tableBase, 1024, 4, 2⟩

/-- A caching policy of the top-level table (20_memory.md R77). -/
inductive CachePolicy where
  | notCacheable | writeback | writethrough
  deriving DecidableEq, Repr

/-- The caching policy of the top-level table (20_memory.md R77, which names no mode; in long mode 10_state.md R24 leaves
the place of PWT and PCD open, notes/assumptions/47.md). -/
def State.tablePolicy (s : State) : CachePolicy :=
  if s.pcd then .notCacheable else if s.pwt then .writethrough else .writeback

/-- The processor caches a translation: nothing while paging is off; global only while PGE = 1 (20_memory.md R78).
DESIGN CHOICE: both addresses are taken as the turn gives them, 64 bits in every mode and variant; and the global flag is
fixed here, by PGE at the fill, and never again (notes/assumptions/22.md). -/
def takeTlbFill (linear physical : Word) (g : Bool) (s : State) : Result State :=
  if s.pg then .next (s.setTlb (s.tlb.insert ⟨linear, physical, g && s.pge⟩)) else .next s

/-- The processor drops an entry (10_state.md R61). -/
def takeTlbDrop (e : TlbEntry) (s : State) : Result State := .next (s.setTlb (s.tlb.filter fun x => x != e))

/-- A linear address of the variant's width, zero-extended (20_memory.md R80, 00_scope.md R3). -/
def State.linearOf (s : State) (linear : Word) : Word :=
  match s.params.arch with
  | .x86_32 => zext64 (low32 linear)
  | .x86_64 => linear

/-- A page fault: CR2 gets the linear address, then the fault (20_memory.md R80, 60_exceptions.md R182). -/
def takePageFault (linear : Word) (s : State) : Result State :=
  if s.pg then .next ((s.setCr2 (s.linearOf linear)).take (.pageFault (s.linearOf linear)))
  else .refused .pageFaultWithPagingOff

end Sys2Proof.Machine
end

