-- ==== Sys2Proof/Machine/Events.lean ====
section
/-! DEFINITION. The steps that are no instruction of the opcode table (00_scope.md R5; notes/assumptions/23.md): the
machine-check logic, and the dispatch of every event to its meaning. -/

namespace Sys2Proof.Machine

/-- A machine-check error is recorded in its bank when the bank's control register enables it, whether or not
machine-check exceptions are (60_exceptions.md R183). -/
def State.recordError (s : State) (bank : Nat) (error : Content) : State :=
  if Config.mcErrorEnabled (storeGet bankDefault s.mcBanks bank).control error then
    s.setMcBanks (storePut bankDefault s.mcBanks bank
      ⟨(storeGet bankDefault s.mcBanks bank).control,
        Config.mcStatusAfter (storeGet bankDefault s.mcBanks bank).status error⟩)
  else s

/-- A machine-check error (60_exceptions.md R183): recorded; an uncorrectable one is then #MC when MCE = 1 and refused
when MCE = 0. -/
def takeMachineCheck (bank : Nat) (error : Content) (uncorrectable : Bool) (s : State) : Result State :=
  if !uncorrectable then .next (s.recordError bank error)
  else if s.mce then .next ((s.recordError bank error).take .machineCheck)
  else .refused .machineCheckWithMceClear

/-- What an event does. -/
def takeEvent (e : Event) (s : State) : Result State :=
  match e with
  | .pageFault linear => takePageFault linear s
  | .machineCheck bank error uncorrectable => takeMachineCheck bank error uncorrectable s
  | .tlbFill linear physical g => takeTlbFill linear physical g s
  | .tlbDrop entry => takeTlbDrop entry s
  | .mediaInsn w => takeMediaInsn w s
  | .mediaFpError w => takeMediaFpError w s
  | .ifInsn => takeIfInsn s
  | .inputCsL b => .next (s.setCsL b)
  | .inputCsD b => .next (s.setCsD b)
  | .inputGuestRunning b => .next (s.setGuestRunning b)

end Sys2Proof.Machine
end

