-- ==== Sys2Proof/WellFormed.lean ====
section
/-! DEFINITION. Which instruction terms an encoding exists for: a memory operand has `mod` other than 11, a SIB byte
exactly when `rm` asks for one, and as many displacement bytes as ModRM and SIB ask for (30_encoding.md R101,
R104, R106); and in which code an instruction can be encoded: REX bits exist in 64-bit mode only (R101, R107), and
each mode has two address sizes. -/

namespace Sys2Proof

/-- ModRM asks for a SIB byte: with `rm` = 4, but not in 16-bit addressing. PRESUMED: the family's rule
(notes/assumptions/6.md); R101 says only that the SIB byte is optional. -/
def MemOperand.hasSib (asz : AddrSize) (rm : BitVec 3) : Bool := asz != .a16 && rm == 4#3

/-- How many displacement bytes follow ModRM and SIB. PRESUMED: R101 says 1, 2 or 4 and that the length is found by
decoding; which one is the family's rule (notes/assumptions/6.md). -/
def MemOperand.dispBytes (asz : AddrSize) (mod : BitVec 2) (rm : BitVec 3) (sib : Option Byte) : Nat :=
  if mod = 1#2 then 1
  else match asz with
    | .a16 => if mod = 2#2 ∨ rm = 6#3 then 2 else 0
    | _ =>
      if mod = 2#2 ∨ rm = 5#3 then 4
      else match sib with
        | some b => if b.extractLsb' 0 3 = 5#3 then 4 else 0
        | none => 0

/-- A memory operand some byte sequence encodes; 16-bit addressing and REX exclude each other. -/
def MemOperand.wf (op : MemOperand) : Bool :=
  op.mod != 3#2 && (op.sib.isSome == MemOperand.hasSib op.asz op.rm) &&
    op.disp.length == MemOperand.dispBytes op.asz op.mod op.rm op.sib && (op.rex.isNone || op.asz != .a16)

/-- An instruction some byte sequence encodes. -/
def Instr.wf : Instr → Bool
  | .fxsave op => op.wf
  | .fxrstor op => op.wf
  | .xsave op => op.wf
  | .xrstor op => op.wf
  | _ => true

/-- Two register numbers can be encoded in the code: a fourth bit needs REX, so 64-bit mode. -/
def CodeSize.fitsRegs (c : CodeSize) (n r : BitVec 4) : Bool := !(n.getLsbD 3 || r.getLsbD 3) || c == .c64

/-- A memory operand can be encoded in the code: REX in 64-bit mode only, and one of its two address sizes. -/
def MemOperand.fits (op : MemOperand) (c : CodeSize) : Bool :=
  (op.rex.isNone || c == .c64) && (op.asz == c.addrSize || op.asz == c.otherAddrSize)

/-- The instruction can be encoded in the code. -/
def Instr.fits (c : CodeSize) : Instr → Bool
  | .movRCr _ n r => c.fitsRegs n r
  | .movCrR _ n r => c.fitsRegs n r
  | .movRDr _ n r => c.fitsRegs n r
  | .movDrR _ n r => c.fitsRegs n r
  | .fxsave op => op.fits c
  | .fxrstor op => op.fits c
  | .xsave op => op.fits c
  | .xrstor op => op.fits c
  | _ => true

end Sys2Proof
end

