-- ==== Sys2Proof/Decode.lean ====
section
/-! DEFINITION. The decoder, total on any bytes and rejecting by name, and after it the encoder, both written from
30_encoding.md R101 to R107 and spec/opcode_table.json. Every encoding is general knowledge in the spec itself
(R100); see notes/assumptions/2.md to 7.md. -/

namespace Sys2Proof

/-- Why a byte sequence is not an instruction of this spec. -/
inductive DecodeError where
  /-- The bytes end before the instruction does. -/
  | truncated
  /-- No row of the opcode table matches (30_encoding.md R106: "not in this spec", never #UD). -/
  | notInSpec
  /-- More than the 15 bytes of 30_encoding.md R101. -/
  | tooLong
  /-- A LOCK byte before an instruction of this spec (30_encoding.md R106). -/
  | lockForm (i : Instr)
  deriving DecidableEq, Repr

/-- What the legacy bytes before an opcode say (30_encoding.md R101). -/
structure Legacy where
  lock     : Bool
  addrSize : Bool
  seg      : Option Seg
  deriving DecidableEq, Repr

/-- No legacy byte. -/
def Legacy.none : Legacy := ⟨false, false, .none⟩

/-- The segment a segment-override byte names. -/
def segOf (b : Byte) : Option Seg :=
  if b = 0x2E#8 then some .cs
  else if b = 0x36#8 then some .ss
  else if b = 0x3E#8 then some .ds
  else if b = 0x26#8 then some .es
  else if b = 0x64#8 then some .fs
  else if b = 0x65#8 then some .gs
  else .none

/-- One more legacy byte, or none when `b` is no legacy byte (30_encoding.md R101). The operand-size and repeat bytes
change no form of the table and are ignored (R102 for 66h, DEDUCED; notes/assumptions/4.md). DESIGN CHOICE: a second
F0h or 67h changes nothing, and of several segment bytes the last counts. -/
def addLegacy (p : Legacy) (b : Byte) : Option Legacy :=
  if b = 0xF0#8 then some { p with lock := true }
  else if b = 0x67#8 then some { p with addrSize := true }
  else if b = 0x66#8 ∨ b = 0xF2#8 ∨ b = 0xF3#8 then some p
  else match segOf b with
    | some g => some { p with seg := some g }
    | .none => .none

/-- The legacy bytes at the head, and the rest. DESIGN CHOICE: any number of them in any order, where 30_encoding.md R101
says neither (notes/assumptions/4.md). -/
def scanLegacy (p : Legacy) : List Byte → Legacy × List Byte
  | [] => (p, [])
  | b :: bs =>
    match addLegacy p b with
    | some p' => scanLegacy p' bs
    | .none => (p, b :: bs)

/-- The REX byte at the head, in 64-bit mode only (30_encoding.md R101, R107), and the rest. -/
def takeRex (c : CodeSize) : List Byte → Option (BitVec 4) × List Byte
  | [] => (.none, [])
  | b :: bs =>
    if c == .c64 && b.extractLsb' 4 4 == 4#4 then (some (b.extractLsb' 0 4), bs) else (.none, b :: bs)

/-- REX.R, REX bit 2. -/
def rexR (rex : Option (BitVec 4)) : Bool :=
  match rex with
  | some x => x.getLsbD 2
  | .none => false

/-- REX.B, REX bit 0. -/
def rexB (rex : Option (BitVec 4)) : Bool :=
  match rex with
  | some x => x.getLsbD 0
  | .none => false

/-- ModRM fields (30_encoding.md R101, R102). -/
def modOf (b : Byte) : BitVec 2 := b.extractLsb' 6 2
def regOf (b : Byte) : BitVec 3 := b.extractLsb' 3 3
def rmOf (b : Byte) : BitVec 3 := b.extractLsb' 0 3

/-- A ModRM byte from its fields. -/
def modRm (m : BitVec 2) (reg rm : BitVec 3) : Byte := m ++ reg ++ rm

/-- A register number: the ModRM field with the fourth bit REX adds (30_encoding.md R102). -/
def extendNumber (hi : Bool) (f : BitVec 3) : BitVec 4 := BitVec.ofBool hi ++ f

/-- The low three bits of a register number, the ModRM field. -/
def low3 (n : BitVec 4) : BitVec 3 := n.extractLsb' 0 3

/-- The second opcode bytes of format `OP2` (30_encoding.md R104). -/
def op2Rows : List (Byte × Instr) :=
  [(0x32#8, .rdmsr), (0x30#8, .wrmsr), (0x31#8, .rdtsc), (0x33#8, .rdpmc),
   (0x05#8, .syscall), (0x07#8, .sysret), (0xA2#8, .cpuid)]

/-- The third bytes of format `OP3`, after 0F 01 (30_encoding.md R104). -/
def op3Rows : List (Byte × Instr) :=
  [(0xF9#8, .rdtscp), (0xD0#8, .xgetbv), (0xD1#8, .xsetbv), (0xD8#8, .vmrun), (0xD9#8, .vmmcall),
   (0xDA#8, .vmload), (0xDB#8, .vmsave), (0xDC#8, .stgi), (0xDD#8, .clgi), (0xDE#8, .skinit),
   (0xDF#8, .invlpga)]

/-- The instruction of format `OP2_MODRM_REG` a second opcode byte names (30_encoding.md R102). -/
def regCtor (b : Byte) : Option (BitVec 2 → BitVec 4 → BitVec 4 → Instr) :=
  if b = 0x20#8 then some .movRCr
  else if b = 0x22#8 then some .movCrR
  else if b = 0x21#8 then some .movRDr
  else if b = 0x23#8 then some .movDrR
  else .none

/-- The instruction of format `OP2_MODRM_MEM` a ModRM opcode extension names, after 0F AE (30_encoding.md R104). -/
def memCtor (ext : BitVec 3) : Option (MemOperand → Instr) :=
  if ext = 0#3 then some .fxsave
  else if ext = 1#3 then some .fxrstor
  else if ext = 4#3 then some .xsave
  else if ext = 5#3 then some .xrstor
  else .none

/-- The first `n` bytes and the rest, or none where there are fewer. -/
def takeBytes (n : Nat) (bs : List Byte) : Option (List Byte × List Byte) :=
  if bs.length < n then .none else some (bs.take n, bs.drop n)

/-- The SIB and displacement bytes ModRM asks for, and the rest. -/
def takeMemTail (asz : AddrSize) (mod : BitVec 2) (rm : BitVec 3) (bs : List Byte) :
    Option (Option Byte × List Byte × List Byte) :=
  if MemOperand.hasSib asz rm then
    match bs with
    | [] => .none
    | b :: bs => (takeBytes (MemOperand.dispBytes asz mod rm (some b)) bs).map fun p => (some b, p.1, p.2)
  else (takeBytes (MemOperand.dispBytes asz mod rm .none) bs).map fun p => (.none, p.1, p.2)

/-- Format `OP2_MODRM_REG` from its ModRM byte on. -/
def decodeRegForm (mk : BitVec 2 → BitVec 4 → BitVec 4 → Instr) (rex : Option (BitVec 4)) :
    List Byte → Except DecodeError (Instr × List Byte)
  | [] => .error .truncated
  | b :: bs =>
    .ok (mk (modOf b) (extendNumber (rexR rex) (regOf b)) (extendNumber (rexB rex) (rmOf b)), bs)

/-- Format `OP2_MODRM_MEM` from its ModRM byte on; `mod` = 11 is no row (30_encoding.md R106). -/
def decodeMemForm (asz : AddrSize) (seg : Option Seg) (rex : Option (BitVec 4)) :
    List Byte → Except DecodeError (Instr × List Byte)
  | [] => .error .truncated
  | b :: bs =>
    if modOf b = 3#2 then .error .notInSpec
    else match memCtor (regOf b) with
      | .none => .error .notInSpec
      | some mk =>
        match takeMemTail asz (modOf b) (rmOf b) bs with
        | .none => .error .truncated
        | some t => .ok (mk ⟨asz, seg, rex, modOf b, rmOf b, t.1, t.2.1⟩, t.2.2)

/-- Format `OP3` from its third byte on. -/
def decodeOp3 : List Byte → Except DecodeError (Instr × List Byte)
  | [] => .error .truncated
  | b :: bs =>
    match op3Rows.lookup b with
    | some i => .ok (i, bs)
    | .none => .error .notInSpec

/-- The two-byte opcodes, from the byte after 0F on. -/
def decodeTwoByte (asz : AddrSize) (seg : Option Seg) (rex : Option (BitVec 4)) :
    List Byte → Except DecodeError (Instr × List Byte)
  | [] => .error .truncated
  | b :: bs =>
    if b = 0x01#8 then decodeOp3 bs
    else if b = 0xAE#8 then decodeMemForm asz seg rex bs
    else match regCtor b with
      | some mk => decodeRegForm mk rex bs
      | .none =>
        match op2Rows.lookup b with
        | some i => .ok (i, bs)
        | .none => .error .notInSpec

/-- Format `OP1_IB` from its immediate on (30_encoding.md R103). -/
def decodeInt : List Byte → Except DecodeError (Instr × List Byte)
  | [] => .error .truncated
  | b :: bs => .ok (.int b, bs)

/-- The opcode and what follows it (30_encoding.md R104). -/
def decodeOpcode (asz : AddrSize) (seg : Option Seg) (rex : Option (BitVec 4)) :
    List Byte → Except DecodeError (Instr × List Byte)
  | [] => .error .truncated
  | b :: bs =>
    if b = 0xFA#8 then .ok (.cli, bs)
    else if b = 0xFB#8 then .ok (.sti, bs)
    else if b = 0xCD#8 then decodeInt bs
    else if b = 0x0F#8 then decodeTwoByte asz seg rex bs
    else .error .notInSpec

/-- The address size the legacy bytes give (30_encoding.md R101, R107). -/
def Legacy.asz (p : Legacy) (c : CodeSize) : AddrSize := if p.addrSize then c.otherAddrSize else c.addrSize

/-- What the length and the legacy bytes allow of the instruction found. The length comes first: more than 15 bytes are
no instruction (30_encoding.md R101), so a LOCK byte among them is before none (DESIGN CHOICE: R101 and R106 give no
order; notes/assumptions/4.md). -/
def checkLegacy (p : Legacy) (len : Nat) (i : Instr) : Option DecodeError :=
  if 15 < len then some .tooLong
  else if p.lock then some (.lockForm i)
  else .none

/-- The instruction at the head of the bytes and the bytes after it, or why there is none (30_encoding.md R101 to
R107). `c` is the code the mode makes of the bytes. -/
def decode (c : CodeSize) (bs : List Byte) : Except DecodeError (Instr × List Byte) :=
  match decodeOpcode ((scanLegacy .none bs).1.asz c) (scanLegacy .none bs).1.seg
      (takeRex c (scanLegacy .none bs).2).1 (takeRex c (scanLegacy .none bs).2).2 with
  | .error e => .error e
  | .ok q =>
    match checkLegacy (scanLegacy .none bs).1 (bs.length - q.2.length) q.1 with
    | some e => .error e
    | .none => .ok q

/-- The segment-override byte of a segment. -/
def Seg.byte : Seg → Byte
  | .es => 0x26#8
  | .cs => 0x2E#8
  | .ss => 0x36#8
  | .ds => 0x3E#8
  | .fs => 0x64#8
  | .gs => 0x65#8

/-- The REX byte two register numbers need, if either does. -/
def rexBytes (n r : BitVec 4) : List Byte :=
  if n.getLsbD 3 || r.getLsbD 3 then
    [0x4#4 ++ (0#1 ++ BitVec.ofBool (n.getLsbD 3) ++ 0#1 ++ BitVec.ofBool (r.getLsbD 3))]
  else []

/-- Format `OP2_MODRM_REG`. -/
def encodeReg (op : Byte) (m : BitVec 2) (n r : BitVec 4) : List Byte :=
  rexBytes n r ++ [0x0F#8, op, modRm m (low3 n) (low3 r)]

/-- Format `OP2_MODRM_MEM`, with the 67h byte where the address size is not the default. -/
def encodeMem (c : CodeSize) (ext : BitVec 3) (op : MemOperand) : List Byte :=
  (if op.asz = c.addrSize then [] else [0x67#8]) ++ ((op.seg.map Seg.byte).toList ++
    ((op.rex.map fun x => 0x4#4 ++ x).toList ++
      ([0x0F#8, 0xAE#8, modRm op.mod ext op.rm] ++ (op.sib.toList ++ op.disp))))

/-- The bytes of an instruction in the code `c` (30_encoding.md R104, spec/opcode_table.json). -/
def encode (c : CodeSize) : Instr → List Byte
  | .movRCr m n r => encodeReg 0x20#8 m n r
  | .movCrR m n r => encodeReg 0x22#8 m n r
  | .rdmsr => [0x0F#8, 0x32#8]
  | .wrmsr => [0x0F#8, 0x30#8]
  | .cli => [0xFA#8]
  | .sti => [0xFB#8]
  | .int i => [0xCD#8, i]
  | .rdtsc => [0x0F#8, 0x31#8]
  | .rdtscp => [0x0F#8, 0x01#8, 0xF9#8]
  | .movRDr m n r => encodeReg 0x21#8 m n r
  | .movDrR m n r => encodeReg 0x23#8 m n r
  | .rdpmc => [0x0F#8, 0x33#8]
  | .fxsave op => encodeMem c 0#3 op
  | .fxrstor op => encodeMem c 1#3 op
  | .xgetbv => [0x0F#8, 0x01#8, 0xD0#8]
  | .xsetbv => [0x0F#8, 0x01#8, 0xD1#8]
  | .xsave op => encodeMem c 4#3 op
  | .xrstor op => encodeMem c 5#3 op
  | .syscall => [0x0F#8, 0x05#8]
  | .sysret => [0x0F#8, 0x07#8]
  | .vmrun => [0x0F#8, 0x01#8, 0xD8#8]
  | .vmmcall => [0x0F#8, 0x01#8, 0xD9#8]
  | .vmload => [0x0F#8, 0x01#8, 0xDA#8]
  | .vmsave => [0x0F#8, 0x01#8, 0xDB#8]
  | .stgi => [0x0F#8, 0x01#8, 0xDC#8]
  | .clgi => [0x0F#8, 0x01#8, 0xDD#8]
  | .skinit => [0x0F#8, 0x01#8, 0xDE#8]
  | .invlpga => [0x0F#8, 0x01#8, 0xDF#8]
  | .cpuid => [0x0F#8, 0xA2#8]

/-- The bytes of `w`, `nbits` long, as spec/opcode_table.json numbers a row: bit 0 is the least significant bit of
the LAST byte of the row, so byte 0 is the most significant (notes/assumptions/3.md); then zero bytes up to the
longest instruction. -/
def tableBytes (nbits w : Nat) : List Byte :=
  (List.range (nbits / 8)).map (fun j => BitVec.ofNat 8 (w >>> (8 * (nbits / 8 - 1 - j)))) ++
    List.replicate 12 0#8

/-- The instruction the decoder reads from an opcode-table word, in 16-bit code: the code of real mode, where
State.reset stands (notes/assumptions/3.md). -/
def decodeTableWord (nbits w : Nat) : Option Instr :=
  match decode .c16 (tableBytes nbits w) with
  | .ok q => some q.1
  | .error _ => .none

end Sys2Proof
end

