-- ==== Sys2Proof/Machine/Fetch.lean ====
section
/-! DEFINITION. Fetching the program's next instruction. The spec has no instruction pointer: a program is a straight
list of operations (44_families_not_described.md R233, decision D24), held as bytes in ascending address order
(20_memory.md R83; notes/assumptions/1.md). -/

namespace Sys2Proof.Machine

/-- A LOCK byte before an instruction: #UD, but a refusal before MOV to or from a control register on a processor where
that reaches CR8 (30_encoding.md R106). -/
def lockOutcome {α : Type} (i : Instr) : Result α :=
  match i with
  | .movRCr _ _ _ => if Config.lockReachesCr8 then .refused .lockReachesCr8 else raise .invalidOpcode
  | .movCrR _ _ _ => if Config.lockReachesCr8 then .refused .lockReachesCr8 else raise .invalidOpcode
  | _ => raise .invalidOpcode

/-- What a byte sequence that does not decode comes to. -/
def decodeErrorOutcome {α : Type} (e : DecodeError) : Result α :=
  match e with
  | .truncated => .refused .truncatedInstruction
  | .notInSpec => .refused .notInSpec
  | .tooLong => .refused .notInSpec
  | .lockForm i => lockOutcome i

/-- The next instruction and the state past its bytes; at the end of the program the run ends (00_scope.md R9). -/
def fetch (s : State) : Result (Instr × State) :=
  match s.code with
  | [] => .fault .endOfProgram
  | b :: bs =>
    match decode s.codeSize (b :: bs) with
    | .ok q => .next (q.1, s.setCode q.2)
    | .error e => decodeErrorOutcome e

/-- `s` with the program `bytes` loaded, the processor to move and no exception taken. -/
def State.withProgram (s : State) (bytes : List Byte) : State :=
  ((s.setCode bytes).setSchedule []).setRaised .none

end Sys2Proof.Machine
end

