-- ==== Sys2Proof/Machine/Step.lean ====
section
/-! DEFINITION. One step: an exception already taken ends the run; else the turn at the head of the schedule, or the
processor's when none is listed, which fetches and runs the program's next instruction. -/

namespace Sys2Proof.Machine

/-- The processor's turn: fetch, then exec. -/
def runInstruction (s : State) : Host.Outcome State Fault Refusal :=
  andThen (fetch s) fun q => exec q.1 q.2

/-- One turn of the schedule. -/
def takeTurn (t : Turn) (s : State) : Host.Outcome State Fault Refusal :=
  match t with
  | .processor => runInstruction s
  | .event e => takeEvent e s

/-- One step. DESIGN CHOICE: the run ends at the processor's turn that finds no bytes left (00_scope.md R9, D24), so an
event listed before that turn is still taken, and a turn listed after it never is. R9 and D24 know one list of
operations, and not where the hardware's own steps fall in it (notes/assumptions/23.md). -/
def step (s : State) : Host.Outcome State Fault Refusal :=
  match s.raised with
  | some f => .fault f
  | .none =>
    match s.schedule with
    | [] => runInstruction s
    | t :: ts => takeTurn t (s.setSchedule ts)

def State.withFetchWord (s : State) (nbits w : Nat) : State :=
  s.withProgram (tableBytes nbits w)

end Sys2Proof.Machine
end

