-- ==== Sys2Proof/Safety.lean ====
section
/-! DEFINITION. What the claims are stated in: the state invariants of 10_state.md R64 with those the register writes
keep beside them. -/

namespace Sys2Proof.Machine

/-- The invariants of the state. The clauses name the rule each follows. -/
structure State.Inv (s : State) : Prop where
  /-- EFER.LMA = EFER.LME & CR0.PG (10_state.md R50, R64). -/
  lma : s.lma = (s.lme && s.pg)
  /-- CR0[63:32] = 0 (R16, R64). -/
  cr0High : high32 s.cr0 = 0#32
  /-- CR3[2:0] = 0 and CR3[63:32] = 0 (R24, R64). -/
  cr3Low : s.cr3.extractLsb' 0 3 = 0#3
  cr3High : high32 s.cr3 = 0#32
  /-- CR3[11:5] = 0 while PAE = 0 (R24, R64). -/
  cr3Unnamed : s.pae = false → s.cr3.extractLsb' 5 7 = 0#7
  /-- The unnamed bits of CR4 and EFER are 0 (R38, R47, R64). -/
  cr4Named : s.cr4 &&& ~~~cr4Named = 0#64
  eferNamed : s.efer &&& ~~~eferNamed = 0#64
  /-- PG needs PE (40_cr_access.md R111, decision D22). -/
  paging : s.pg = true → s.pe = true
  /-- Long mode keeps PAE (40_cr_access.md R112, R119, decision D23). -/
  longModePae : s.lma = true → s.pae = true
  /-- An enable bit is set only where the feature is present (41_efer_access.md R131, 40_cr_access.md R119). -/
  features : s.eferFeatureAbsent s.efer = false
  xsave : s.osxsave = true → s.params.hasXsave = true
  /-- Memory, the counters and the banks are in canonical form; the TLB has no repeats. -/
  mem : Memory.wf s.mem = true
  perf : storeWf perfDefault s.perf = true
  mcBanks : storeWf bankDefault s.mcBanks = true
  tlb : s.tlb.Nodup
  /-- In the x86_32 variant registers are 32 bits wide (00_scope.md R3, decision D2). -/
  narrow : s.params.arch = .x86_32 →
    high32 s.cr2 = 0#32 ∧ high32 s.dr6 = 0#32 ∧ high32 s.dr7 = 0#32 ∧ ∀ r, high32 (s.getGpr r) = 0#32

end Sys2Proof.Machine
end

