-- ==== Sys2Proof/Certificates/Slice0/Obligations.lean ====
section
/-! DEFINITION. The statements for the provers. A next state is written out by the named updates of Machine/Ops.lean and
Machine/Operands.lean, each of which writes one field, or as a record update: whatever it does not name is
unchanged. "D<n>" is a decision of 92_eei_decisions.md, "entry <n>" a row of notes/assumptions. A statement about a gate
assumes rFLAGS.VM = 0; what every gate does in virtual-8086 mode is `Virtual8086Refused` (D17). -/

open Sys2Proof Sys2Proof.Machine

/-! ## Control registers -/

/-- 40_cr_access.md R113, R115, R117, R120, R121 with R110: MOV r,CRn at CPL 0 completes: register r gets the whole
control register in 64-bit mode and its low 32 bits, zero-extended, elsewhere; nothing else changes. Above CPL 0 it is
`NotPermitted` (D10, the spec's own decision). -/
def Obligations.MovFromControlRegister : Prop :=
  ∀ (s : State) (m : BitVec 2) (r n : BitVec 4) (v : Word),
    (n, v) ∈ [(0#4, s.cr0), (2#4, s.cr2), (3#4, s.cr3), (4#4, s.cr4)] →
    (s.cpl = 0 → exec (.movRCr m n r) s =
      .next ((s.setGpr r (if s.mode64 then v else zext64 (low32 v))).setAnswer (.value v))) ∧
    (s.cpl ≠ 0 → exec (.movRCr m n r) s = .fault .notPermitted)

/-- 40_cr_access.md R111, R112, R122: MOV CR0,r completes when every listed check passes. Every bit of CR0 takes the
written value but bit 4, which stays; EFER.LMA becomes LME and the written PG; nothing else changes. That
the TLB keeps every entry, where 20_memory.md R91 says only that none is obliged to go, is the model's choice
(entry 22). -/
def Obligations.MovToCr0Completes : Prop :=
  ∀ (s : State) (m : BitVec 2) (r : BitVec 4) (v : Word), v = s.srcReg r →
    s.cpl = 0 → high32 v = 0#32 → (v.getLsbD 31 = true → v.getLsbD 0 = true) →
    (v.getLsbD 31 = true → s.pg = false → s.lme = true → s.pae = true) →
    (v.getLsbD 31 = false → s.pg = true → s.mode64 = false) →
    ∃ t, exec (.movCrR m 0#4 r) s = .next t ∧
      (∀ k < 64, t.cr0.getLsbD k = if k = 4 then s.cr0.getLsbD 4 else v.getLsbD k) ∧
      (∀ k < 64, t.efer.getLsbD k = if k = 10 then s.lme && v.getLsbD 31 else s.efer.getLsbD k) ∧
      t = { s with cr0 := t.cr0, efer := t.efer, answer := .nothing }

/-- 40_cr_access.md R111, R112 with R110, R16: what stops MOV CR0,r, in the listed order (D5, D10, D22, D23, the spec's
own decisions). -/
def Obligations.MovToCr0Stops : Prop :=
  ∀ (s : State) (m : BitVec 2) (r : BitVec 4) (v : Word), v = s.srcReg r →
    (s.cpl ≠ 0 → exec (.movCrR m 0#4 r) s = .fault .notPermitted) ∧
    (s.cpl = 0 → high32 v ≠ 0#32 → exec (.movCrR m 0#4 r) s = .refused .reservedBits) ∧
    (s.cpl = 0 → high32 v = 0#32 → v.getLsbD 31 = true → v.getLsbD 0 = false →
      exec (.movCrR m 0#4 r) s = .fault .notPermitted) ∧
    (s.cpl = 0 → high32 v = 0#32 → v.getLsbD 31 = true → v.getLsbD 0 = true →
      s.pg = false → s.lme = true → s.pae = false → exec (.movCrR m 0#4 r) s = .fault .notPermitted) ∧
    (s.cpl = 0 → high32 v = 0#32 → v.getLsbD 31 = false → s.pg = true → s.mode64 = true →
      exec (.movCrR m 0#4 r) s = .refused .leavingLongModeFrom64BitMode)

/-- 40_cr_access.md R118, R122: MOV CR2,r writes the whole register at CPL 0, with no other effect (D20), and is
`NotPermitted` above (D10). -/
def Obligations.MovToCr2 : Prop :=
  ∀ (s : State) (m : BitVec 2) (r : BitVec 4),
    (s.cpl = 0 → exec (.movCrR m 2#4 r) s = .next ((s.setCr2 (s.srcReg r)).setAnswer .nothing)) ∧
    (s.cpl ≠ 0 → exec (.movCrR m 2#4 r) s = .fault .notPermitted)

/-- 40_cr_access.md R116, R122 and 20_memory.md R78: MOV CR3,r completes when every listed check passes: CR3 gets the
value; the TLB keeps exactly its global entries when PGE = 1 and nothing when PGE = 0; nothing else changes. -/
def Obligations.MovToCr3Completes : Prop :=
  ∀ (s : State) (m : BitVec 2) (r : BitVec 4) (v : Word), v = s.srcReg r →
    s.cpl = 0 → s.lma = false → high32 v = 0#32 → v.extractLsb' 0 3 = 0#3 →
    (s.pae = false → v.extractLsb' 5 7 = 0#7) →
    ∃ t, exec (.movCrR m 3#4 r) s = .next t ∧ t.cr3 = v ∧
      (∀ e, e ∈ t.tlb ↔ e ∈ s.tlb ∧ e.isGlobal = true ∧ s.pge = true) ∧
      t = { s with cr3 := t.cr3, tlb := t.tlb, answer := .nothing }

/-- 40_cr_access.md R116 with R110 and 10_state.md R24: what stops MOV CR3,r, in the listed order (D10, D21, the spec's
own decisions). -/
def Obligations.MovToCr3Stops : Prop :=
  ∀ (s : State) (m : BitVec 2) (r : BitVec 4) (v : Word), v = s.srcReg r →
    (s.cpl ≠ 0 → exec (.movCrR m 3#4 r) s = .fault .notPermitted) ∧
    (s.cpl = 0 → s.lma = true → exec (.movCrR m 3#4 r) s = .refused .cr3LongModeFormatNotInSource) ∧
    (s.cpl = 0 → s.lma = false →
      (high32 v ≠ 0#32 ∨ v.extractLsb' 0 3 ≠ 0#3 ∨ (s.pae = false ∧ v.extractLsb' 5 7 ≠ 0#7)) →
      exec (.movCrR m 3#4 r) s = .refused .reservedBits)

/-- 40_cr_access.md R119, R122 with 10_state.md R24, R64: MOV CR4,r completes when every listed check passes: CR4 gets the
value. Where it has PAE clear, CR3[11:5] are 0 after it, as the invariant of R64 asks; that this write clears them is
the model's choice (entry 34). Nothing else changes; that the TLB keeps every entry is the model's choice too (entry 22:
drops are turns of their own), since 20_memory.md R91 says only that none is obliged to go. -/
def Obligations.MovToCr4Completes : Prop :=
  ∀ (s : State) (m : BitVec 2) (r : BitVec 4) (v : Word), v = s.srcReg r →
    s.cpl = 0 → v &&& ~~~0x000407FF#64 = 0#64 → (v.getLsbD 18 = true → s.params.hasXsave = true) →
    (s.lma = true → v.getLsbD 5 = true) →
    ∃ t, exec (.movCrR m 4#4 r) s = .next t ∧ t.cr4 = v ∧
      (∀ k < 64, t.cr3.getLsbD k =
        if v.getLsbD 5 = false ∧ 5 ≤ k ∧ k ≤ 11 then false else s.cr3.getLsbD k) ∧
      t = { s with cr3 := t.cr3, cr4 := t.cr4, answer := .nothing }

/-- 40_cr_access.md R119 with R110 and 10_state.md R38: what stops MOV CR4,r, in the listed order (D5, D10, D18, D23, the
spec's own decisions). -/
def Obligations.MovToCr4Stops : Prop :=
  ∀ (s : State) (m : BitVec 2) (r : BitVec 4) (v : Word), v = s.srcReg r →
    (s.cpl ≠ 0 → exec (.movCrR m 4#4 r) s = .fault .notPermitted) ∧
    (s.cpl = 0 → v &&& ~~~0x000407FF#64 ≠ 0#64 → exec (.movCrR m 4#4 r) s = .refused .reservedBits) ∧
    (s.cpl = 0 → v &&& ~~~0x000407FF#64 = 0#64 → v.getLsbD 18 = true → s.params.hasXsave = false →
      exec (.movCrR m 4#4 r) s = .refused .featureAbsent) ∧
    (s.cpl = 0 → v &&& ~~~0x000407FF#64 = 0#64 → (v.getLsbD 18 = true → s.params.hasXsave = true) →
      s.lma = true → v.getLsbD 5 = false → exec (.movCrR m 4#4 r) s = .fault .notPermitted)

/-- 40_cr_access.md R114, R121, R122 and 30_encoding.md R106: MOV to or from CR1 is refused in any state (D6), to or from
CR5 to CR7 is #UD (entry 7), to or from CR8 to CR15 is outside the spec. -/
def Obligations.OtherControlRegistersStop : Prop :=
  ∀ (s : State) (m : BitVec 2) (n r : BitVec 4),
    (n = 1#4 → exec (.movRCr m n r) s = .refused .cr1Reserved ∧
      exec (.movCrR m n r) s = .refused .cr1Reserved) ∧
    (5 ≤ n.toNat → n.toNat ≤ 7 → exec (.movRCr m n r) s = .fault .invalidOpcode ∧
      exec (.movCrR m n r) s = .fault .invalidOpcode) ∧
    (8 ≤ n.toNat → exec (.movRCr m n r) s = .refused (.crOutsideSpec n.toNat) ∧
      exec (.movCrR m n r) s = .refused (.crOutsideSpec n.toNat))

/-! ## EFER -/

/-- 41_efer_access.md R130, R134: RDMSR of EFER at CPL 0 completes: EDX:EAX gets EFER, the upper halves zeroed; nothing
else changes. That they are zeroed outside 64-bit mode too is the model's choice (entry 35). Above CPL 0 it is
`NotPermitted` (D10); any other number is outside the spec. -/
def Obligations.RdmsrReadsEfer : Prop :=
  ∀ (s : State),
    (s.reg32 1#4 = 0xC0000080#32 → s.cpl = 0 → exec .rdmsr s =
      .next (((s.setGpr 2#4 (zext64 (high32 s.efer))).setGpr 0#4 (zext64 (low32 s.efer))).setAnswer
        (.value s.efer))) ∧
    (s.reg32 1#4 = 0xC0000080#32 → s.cpl ≠ 0 → exec .rdmsr s = .fault .notPermitted) ∧
    (s.reg32 1#4 ≠ 0xC0000080#32 → exec .rdmsr s = .refused (.msrOutsideSpec (s.reg32 1#4)))

/-- 41_efer_access.md R131, R135: WRMSR of EFER completes when every listed check passes, and writes EFER alone. That
the TLB keeps every entry where NXE changes (20_memory.md R91) is the model's choice (entry 22). -/
def Obligations.WrmsrWritesEfer : Prop :=
  ∀ (s : State) (v : Word), v = s.reg32 2#4 ++ s.reg32 0#4 → s.reg32 1#4 = 0xC0000080#32 →
    s.cpl = 0 → v &&& ~~~0x00007D01#64 = 0#64 → v.getLsbD 10 = s.lma →
    (s.pg = true → v.getLsbD 8 = s.lme) →
    (v.getLsbD 8 = true → s.params.arch = .x86_64) → (v.getLsbD 11 = true → s.params.hasNx = true) →
    (v.getLsbD 14 = true → s.params.hasFfxsr = true) →
    (v.getLsbD 12 = true → s.params.hasSvm = true ∧ s.vmCr.svmeDisable = false) →
    (v.getLsbD 12 = false → s.svme = true → s.guestRunning = false) →
    exec .wrmsr s = .next ((s.setEfer v).setAnswer .nothing)

/-- 41_efer_access.md R131, R133, R136: the refusals of WRMSR of EFER, in the listed order, and any other number (D5, D9,
D18, D26, the spec's own decisions). -/
def Obligations.WrmsrRefusals : Prop :=
  ∀ (s : State) (v : Word), v = s.reg32 2#4 ++ s.reg32 0#4 →
    (s.reg32 1#4 ≠ 0xC0000080#32 → exec .wrmsr s = .refused (.msrOutsideSpec (s.reg32 1#4))) ∧
    (s.reg32 1#4 = 0xC0000080#32 → s.cpl = 0 →
      (v &&& ~~~0x00007D01#64 ≠ 0#64 → exec .wrmsr s = .refused .reservedBits) ∧
      (v &&& ~~~0x00007D01#64 = 0#64 →
        (v.getLsbD 10 ≠ s.lma → exec .wrmsr s = .refused .writeChangesReadOnlyLma) ∧
        (v.getLsbD 10 = s.lma → (s.pg = true → v.getLsbD 8 = s.lme) →
          ((v.getLsbD 8 = true ∧ s.params.arch = .x86_32) ∨ (v.getLsbD 11 = true ∧ s.params.hasNx = false) ∨
            (v.getLsbD 14 = true ∧ s.params.hasFfxsr = false) ∨
            (v.getLsbD 12 = true ∧ (s.params.hasSvm = false ∨ s.vmCr.svmeDisable = true)) →
            exec .wrmsr s = .refused .featureAbsent) ∧
          (s.eferFeatureAbsent v = false → v.getLsbD 12 = false → s.svme = true → s.guestRunning = true →
            exec .wrmsr s = .refused .undefinedSvmeOffWhileGuestRuns))))

/-- 41_efer_access.md R130, R131, R132: WRMSR of EFER is `NotPermitted` above CPL 0 (D10), and at CPL 0 where it would
change LME, either way, with paging on (D8). -/
def Obligations.WrmsrFaults : Prop :=
  ∀ (s : State) (v : Word), v = s.reg32 2#4 ++ s.reg32 0#4 → s.reg32 1#4 = 0xC0000080#32 →
    (s.cpl ≠ 0 → exec .wrmsr s = .fault .notPermitted) ∧
    (s.cpl = 0 → v &&& ~~~0x00007D01#64 = 0#64 → v.getLsbD 10 = s.lma → s.pg = true →
      v.getLsbD 8 ≠ s.lme → exec .wrmsr s = .fault .notPermitted)

/-- 70_reset_and_hazards.md R224: no step changes EFER.LME while CR0.PG = 1. -/
def Obligations.LmeFixedWhilePaging : Prop :=
  ∀ s t : State, step s = .next t → s.pg = true → t.lme = s.lme

/-- 70_reset_and_hazards.md R212: the order that activates long mode. From paging off, PAE = 1 and CPL 0 in the 64-bit
variant, WRMSR of EFER with LME added completes and does not enter long mode; then MOV CR0,r of a value with PE and PG
completes and long mode is active, in compatibility mode while the L bit is 0 (D23 for PAE, the spec's own
decision). -/
def Obligations.LongModeActivation : Prop :=
  ∀ (s : State) (m : BitVec 2) (r : BitVec 4), State.Inv s → s.cpl = 0 → s.pg = false → s.pae = true →
    s.params.arch = .x86_64 → s.reg32 1#4 = 0xC0000080#32 → s.reg32 2#4 = 0#32 →
    s.reg32 0#4 = low32 s.efer ||| 0x100#32 →
    ∃ t, exec .wrmsr s = .next t ∧ t.lme = true ∧ t.longModeActive = false ∧
      (high32 (t.srcReg r) = 0#32 → (t.srcReg r).getLsbD 31 = true → (t.srcReg r).getLsbD 0 = true →
        ∃ u, exec (.movCrR m 0#4 r) t = .next u ∧ u.longModeActive = true ∧
          (s.csL = false → u.compatMode = true))

/-! ## Interrupt flag -/

/-- 42_cr4_gated.md R140: CLI outside virtual-8086 mode clears IF in real mode or when CPL ≤ IOPL, and clears VIF instead
at CPL 3 above IOPL with PVI = 1; nothing else changes. -/
def Obligations.CliCompletes : Prop :=
  ∀ s : State, s.rflags.vm = false →
    (s.pe = false ∨ s.cpl.val ≤ s.rflags.iopl.toNat →
      exec .cli s = .next ((s.setIf false).setAnswer .nothing)) ∧
    (s.pe = true → s.rflags.iopl.toNat < s.cpl.val → s.pvi = true → s.cpl = 3 →
      exec .cli s = .next ((s.setVif false).setAnswer .nothing))

/-- 42_cr4_gated.md R141: STI outside virtual-8086 mode sets IF in real mode or when CPL ≤ IOPL, and sets VIF instead at
CPL 3 above IOPL with PVI = 1 and no virtual interrupt pending; nothing else changes. -/
def Obligations.StiCompletes : Prop :=
  ∀ s : State, s.rflags.vm = false →
    (s.pe = false ∨ s.cpl.val ≤ s.rflags.iopl.toNat →
      exec .sti s = .next ((s.setIf true).setAnswer .nothing)) ∧
    (s.pe = true → s.rflags.iopl.toNat < s.cpl.val → s.pvi = true → s.cpl = 3 → s.rflags.vip = false →
      exec .sti s = .next ((s.setVif true).setAnswer .nothing))

/-- 42_cr4_gated.md R140, R141: in protected mode above IOPL, CLI and STI are `NotPermitted` unless PVI = 1 at CPL 3, and
STI there too while a virtual interrupt is pending. -/
def Obligations.CliStiFaults : Prop :=
  ∀ s : State, s.rflags.vm = false → s.pe = true → s.rflags.iopl.toNat < s.cpl.val →
    (¬ (s.pvi = true ∧ s.cpl = 3) →
      exec .cli s = .fault .notPermitted ∧ exec .sti s = .fault .notPermitted) ∧
    (s.pvi = true → s.cpl = 3 → s.rflags.vip = true → exec .sti s = .fault .notPermitted)

/-- 42_cr4_gated.md R142, R143: outside virtual-8086 mode INT n, and any other instruction that manipulates IF, is
permitted whatever CR4 holds; the gate changes nothing. Delivery is not in the spec (60_exceptions.md R188; entry 32). -/
def Obligations.IntPermitted : Prop :=
  ∀ (s : State) (i : Byte), s.rflags.vm = false →
    exec (.int i) s = .next (s.setAnswer .permitted) ∧
    takeEvent .ifInsn s = .next (s.setAnswer .permitted)

/-- 60_exceptions.md R194 (D17): in virtual-8086 mode every gate is refused: every instruction but the register accesses
MOV to and from control registers, RDMSR and WRMSR (which are no gates and read CPL, entry 26), and the classes with no
opcode row. -/
def Obligations.Virtual8086Refused : Prop :=
  ∀ s : State, s.rflags.vm = true →
    (∀ i : Instr, (∀ m n r, i ≠ .movRCr m n r ∧ i ≠ .movCrR m n r) → i ≠ .rdmsr → i ≠ .wrmsr →
      exec i s = .refused .virtual8086ModeNotModelled) ∧
    (∀ e : Event, (e = .ifInsn ∨ ∃ w, e = .mediaInsn w ∨ e = .mediaFpError w) →
      takeEvent e s = .refused .virtual8086ModeNotModelled)

/-! ## Counters -/

/-- 42_cr4_gated.md R144, R145: RDTSC and RDTSCP are permitted when TSD = 0 or at privilege level 0. Some value goes to
EDX:EAX; nothing else changes. Elsewhere they are `NotPermitted`. The model's choices here: the counter holds that value
after the read (entry 13), RDTSCP also writes ECX (entry 31), and the upper halves of the registers written are zeroed
(entry 35). -/
def Obligations.RdtscAndRdtscpComplete : Prop :=
  ∀ s : State, s.rflags.vm = false →
    (s.tsd = false ∨ s.gateCpl = 0 →
      (∃ v : Word, exec .rdtsc s =
        .next ((((s.setTsc v).setEdxEax v).setDraws (s.draws + 1)).setAnswer (.value v))) ∧
      (∃ (v : Word) (c : BitVec 32), exec .rdtscp s =
        .next (((((s.setTsc v).setEdxEax v).setReg32 1#4 c).setDraws (s.draws + 2)).setAnswer (.value v)))) ∧
    (s.tsd = true → s.gateCpl ≠ 0 →
      exec .rdtsc s = .fault .notPermitted ∧ exec .rdtscp s = .fault .notPermitted)

/-- 10_state.md R28: TSD is bit 2 of CR4. While it is 0, software at any privilege level can run RDTSC and RDTSCP; while
it is 1, only software at level 0 can: CPL 0, or real mode, which counts as level 0 (general knowledge in
42_cr4_gated.md's opening; entry 25). That RDTSCP exists on every processor is the model's choice (entry 31). -/
def Obligations.TsdRestrictsTimeStampCounter : Prop :=
  ∀ (s : State) (i : Instr), s.rflags.vm = false → i = .rdtsc ∨ i = .rdtscp →
    (s.cr4.getLsbD 2 = false → ∃ t, exec i s = .next t) ∧
    (s.cr4.getLsbD 2 = true → ((∃ t, exec i s = .next t) ↔ s.cr0.getLsbD 0 = false ∨ s.cpl = 0))

/-- 42_cr4_gated.md R148: RDPMC is permitted when PCE = 1 or at privilege level 0. The counter ECX selects holds some
value, which goes to EDX:EAX, upper halves zeroed (entry 35); nothing else changes. Elsewhere it is `NotPermitted`. That
it completes for every ECX, and the counter it names holds the value, is the model's choice (entry 14): R148 speaks of
a fault for a selection out of range, and gives no range. -/
def Obligations.RdpmcCompletes : Prop :=
  ∀ s : State, s.rflags.vm = false →
    (s.pce = true ∨ s.gateCpl = 0 → ∃ v : Word, exec .rdpmc s =
      .next ((((s.setPerf (storePut perfDefault s.perf (s.reg32 1#4).toNat v)).setEdxEax v).setDraws
        (s.draws + 1)).setAnswer (.value v))) ∧
    (s.pce = false → s.gateCpl ≠ 0 → exec .rdpmc s = .fault .notPermitted)

/-- 10_state.md R34: PCE is bit 8 of CR4. While it is 1, software at any privilege level can use RDPMC; while it is 0,
only software at level 0 can: CPL 0, or real mode, which counts as level 0 (general knowledge in 42_cr4_gated.md's
opening; entry 25). That no ECX stops it is the model's choice (entry 14). -/
def Obligations.PceOpensPerformanceCounters : Prop :=
  ∀ s : State, s.rflags.vm = false →
    (s.cr4.getLsbD 8 = true → ∃ t, exec .rdpmc s = .next t) ∧
    (s.cr4.getLsbD 8 = false → ((∃ t, exec .rdpmc s = .next t) ↔ s.cr0.getLsbD 0 = false ∨ s.cpl = 0))

/-! ## Debug registers -/

/-- 42_cr4_gated.md R146, R147, 30_encoding.md R102: MOV to and from DR4 and DR5 while DE = 0, and DR6 and DR7 always,
complete at any privilege level (entry 27): register 4 or 6 is DR6, 5 or 7 is DR7, at the operand size of the mode;
nothing else changes. That outside 64-bit mode the low 32 bits are zero-extended, into the register and into DR6 or DR7,
is the model's choice (entry 35). -/
def Obligations.DebugRegisterMoves : Prop :=
  ∀ (s : State) (m : BitVec 2) (n r : BitVec 4), s.rflags.vm = false →
    (n = 6#4 ∨ (n = 4#4 ∧ s.de = false) →
      exec (.movRDr m n r) s =
        .next ((s.setGpr r (if s.mode64 then s.dr6 else zext64 (low32 s.dr6))).setAnswer (.value s.dr6)) ∧
      exec (.movDrR m n r) s = .next ((s.setDr6 (s.srcReg r)).setAnswer .nothing)) ∧
    (n = 7#4 ∨ (n = 5#4 ∧ s.de = false) →
      exec (.movRDr m n r) s =
        .next ((s.setGpr r (if s.mode64 then s.dr7 else zext64 (low32 s.dr7))).setAnswer (.value s.dr7)) ∧
      exec (.movDrR m n r) s = .next ((s.setDr7 (s.srcReg r)).setAnswer .nothing))

/-- 42_cr4_gated.md R146, R147, 60_exceptions.md R189: while DE = 1 an access to DR4 or DR5 is #UD at privilege level 0,
and #UD or `NotPermitted` above it, for the read and for the write (D3); DR0 to DR3 and DR8 to DR15 are outside the
spec. -/
def Obligations.DebugRegisterStops : Prop :=
  ∀ (s : State) (m : BitVec 2) (n r : BitVec 4), s.rflags.vm = false →
    (s.de = true → (n = 4#4 ∨ n = 5#4) → s.gateCpl = 0 →
      exec (.movRDr m n r) s = .fault .invalidOpcode ∧ exec (.movDrR m n r) s = .fault .invalidOpcode) ∧
    (s.de = true → (n = 4#4 ∨ n = 5#4) → s.gateCpl ≠ 0 →
      (∃ f, (f = .invalidOpcode ∨ f = .notPermitted) ∧ exec (.movRDr m n r) s = .fault f) ∧
      (∃ f, (f = .invalidOpcode ∨ f = .notPermitted) ∧ exec (.movDrR m n r) s = .fault f)) ∧
    (n.toNat ≤ 3 ∨ 8 ≤ n.toNat → exec (.movRDr m n r) s = .refused (.drOutsideSpec n.toNat) ∧
      exec (.movDrR m n r) s = .refused (.drOutsideSpec n.toNat))

/-! ## Media and XSAVE -/

/-- 42_cr4_gated.md R150: FXSAVE completes whatever CR4 and EFER hold. It answers the components saved: x87 and
MMX; with OSFXSR = 1 also MXCSR, and XMM0 to XMM15 unless FFXSR = 1 in 64-bit mode at privilege level 0. It writes
memory alone: every byte keeps its content but those of the image whose component is saved, or of which the spec does
not say (OSFXSR = 0: MXCSR and XMM), or which belong to none. Place, size and layout of the image are free (entry 17).
That no alignment is asked for (entry 46) and no page fault comes of it (entry 42) is the model's choice. -/
def Obligations.FxsaveCompletes : Prop :=
  ∀ (s : State) (op : MemOperand), s.rflags.vm = false → ∃ t, exec (.fxsave op) s = .next t ∧
    t.answer = .moved (if s.osfxsr then
      (if s.ffxsr && s.mode64 && s.gateCpl == 0 then [.x87, .mmx, .mxcsr] else [.x87, .mmx, .mxcsr, .xmm])
      else [.x87, .mmx]) ∧
    t = { s with mem := t.mem, draws := s.draws + 1, answer := t.answer } ∧
    (∀ a, (∀ i < Config.fxImageBytes, s.imageAddress op i = a →
        Config.fxImageOwner i = some .xmm ∧ s.osfxsr = true ∧ s.ffxsr = true ∧ s.mode64 = true ∧ s.gateCpl = 0) →
      memRead t.mem a = memRead s.mem a)

/-- 42_cr4_gated.md R151: FXRSTOR completes whatever CR4 and EFER hold (on any image, of FXSAVE's size: entry 18; at any
address, aligned or not: entry 46; with no page fault of its own: entry 42). x87 and MMX are loaded from the image, with
OSFXSR = 1 MXCSR too, and XMM0 to XMM15 unless FFXSR = 1 in 64-bit mode at privilege level 0, when they keep
their values; with OSFXSR = 0 MXCSR and XMM are free. It writes those components alone, and no memory; that the YMM and other extended contents stay where
XMM0 to XMM15 are loaded is the model's choice (entry 16). -/
def Obligations.FxrstorCompletes : Prop :=
  ∀ (s : State) (op : MemOperand), s.rflags.vm = false → ∃ t, exec (.fxrstor op) s = .next t ∧
    t = { s with media := t.media, draws := s.draws + 1, answer := t.answer } ∧
    t.answer = .moved (if s.osfxsr then
      (if s.ffxsr && s.mode64 && s.gateCpl == 0 then [.x87, .mmx, .mxcsr] else [.x87, .mmx, .mxcsr, .xmm])
      else [.x87, .mmx]) ∧
    t.media.x87 = Config.fxLoad .x87 0 (s.imageBytes op Config.fxImageBytes) ∧
    t.media.mmx = Config.fxLoad .mmx 0 (s.imageBytes op Config.fxImageBytes) ∧
    (s.osfxsr = true → t.media.mxcsr = Config.fxLoad .mxcsr 16 (s.imageBytes op Config.fxImageBytes)) ∧
    (s.osfxsr = true → ¬ (s.ffxsr = true ∧ s.mode64 = true ∧ s.gateCpl = 0) → ∀ j : Fin 16,
      t.media.xmm[j] = Config.fxLoad .xmm j.val (s.imageBytes op Config.fxImageBytes)) ∧
    (s.osfxsr = true → s.ffxsr = true → s.mode64 = true → s.gateCpl = 0 → ∀ j : Fin 16,
      t.media.xmm[j] = s.media.xmm[j]) ∧
    t.media.ymm = s.media.ymm ∧ t.media.ext = s.media.ext

/-- 10_state.md R35, 42_cr4_gated.md R149, R150, R151: OSFXSR is bit 9 of CR4. While it is 0 a 128-bit or 256-bit media
instruction is #UD, and FXSAVE and FXRSTOR still save and restore the x87 and MMX state. While it is 1 the media
instructions are permitted, and what one leaves is the model's choice (entry 33): MXCSR, XMM and YMM free, the draw
counter advanced, nothing else changed; and FXSAVE and FXRSTOR also list MXCSR as moved, and XMM0 to XMM15 where FFXSR
does not skip them. With the bit 0 they do not list them: whether they are moved then is not stated (93 U12; entries 17
and 18). That the two complete at any operand, on any image, is the model's choice: no page fault
of their own (entry 42), no alignment check (entry 46), no image rejected (entry 18). -/
def Obligations.OsfxsrEnablesMediaInstructions : Prop :=
  ∀ (s : State) (op : MemOperand) (w : MediaWidth), s.rflags.vm = false →
    (s.cr4.getLsbD 9 = false → takeEvent (.mediaInsn w) s = .fault .invalidOpcode) ∧
    (s.cr4.getLsbD 9 = true → ∃ t, takeEvent (.mediaInsn w) s = .next t ∧
      t = { s with
        media := { s.media with mxcsr := t.media.mxcsr, xmm := t.media.xmm, ymm := t.media.ymm }
        draws := s.draws + 1, answer := .permitted }) ∧
    (∀ i, i = .fxsave op ∨ i = .fxrstor op → ∃ t cs, exec i s = .next t ∧ t.answer = .moved cs ∧
      .x87 ∈ cs ∧ .mmx ∈ cs ∧ (.mxcsr ∈ cs ↔ s.cr4.getLsbD 9 = true) ∧
      (.xmm ∈ cs → s.cr4.getLsbD 9 = true) ∧ (s.cr4.getLsbD 9 = true → s.ffxsr = false → .xmm ∈ cs))

/-- 10_state.md R46: FFXSR is bit 14 of EFER. It makes FXSAVE and FXRSTOR skip XMM0 to XMM15, which keep their values, in
64-bit mode at privilege level 0, and has no effect elsewhere; x87 and MXCSR it never affects (stated with OSFXSR = 1,
where those and XMM are otherwise moved). Level 0 is CPL 0, or real mode (general knowledge in 42_cr4_gated.md's opening;
entry 25). That the two complete at any operand, on any image, is the model's choice: no page fault
of their own (entry 42), no alignment check (entry 46), no image rejected (entry 18). -/
def Obligations.FfxsrSkipsXmm : Prop :=
  ∀ (s : State) (op : MemOperand) (i : Instr), s.rflags.vm = false → s.osfxsr = true →
    i = .fxsave op ∨ i = .fxrstor op →
    ∃ t cs, exec i s = .next t ∧ t.answer = .moved cs ∧ .x87 ∈ cs ∧ .mxcsr ∈ cs ∧
      (.xmm ∉ cs ↔ s.efer.getLsbD 14 = true ∧ s.mode64 = true ∧ (s.cr0.getLsbD 0 = false ∨ s.cpl = 0)) ∧
      (.xmm ∉ cs → ∀ j : Fin 16, t.media.xmm[j] = s.media.xmm[j])

/-- 10_state.md R36: OSXMMEXCPT is bit 10 of CR4. While it is 1 an unmasked 128-bit or 256-bit media floating-point error
is #XF; while it is 0 an unmasked 128-bit one is #UD. -/
def Obligations.OsxmmexcptRoutesErrors : Prop :=
  ∀ (s : State) (w : MediaWidth), s.rflags.vm = false →
    (s.cr4.getLsbD 10 = true → takeEvent (.mediaFpError w) s = .fault .simdFloatingPoint) ∧
    (s.cr4.getLsbD 10 = false → w = .w128 → takeEvent (.mediaFpError w) s = .fault .invalidOpcode)

/-- 42_cr4_gated.md R152: an unmasked 256-bit media floating-point error while OSXMMEXCPT = 0 is what the parameter
`XF256_WHEN_OSXMMEXCPT0` says, and its value is `refuse` at reset (00_scope.md section 4; D16, the spec's own
decision). -/
def Obligations.MediaError256 : Prop :=
  State.reset.params.xf256 = .refuse ∧
  ∀ s : State, s.rflags.vm = false → s.osxmmexcpt = false →
    (s.params.xf256 = .refuse → takeEvent (.mediaFpError .w256) s = .refused .xf256WhenOsxmmexcpt0) ∧
    (s.params.xf256 = .invalidOpcode → takeEvent (.mediaFpError .w256) s = .fault .invalidOpcode)

/-- 42_cr4_gated.md R153, R154: with OSXSAVE = 1 XGETBV completes at any privilege level: some value goes to EDX:EAX; and
XSETBV completes at privilege level 0: XCR0 holds some value after it where ECX names it (R154: which values it accepts
is not in the spec and the model stores nothing) and stays where ECX does not (entry 15). Nothing else changes. That
XGETBV zeroes the upper halves of its two registers is the model's choice (entry 35). -/
def Obligations.XgetbvAndXsetbvComplete : Prop :=
  ∀ s : State, s.rflags.vm = false → s.osxsave = true →
    (∃ v : Word, exec .xgetbv s =
      .next (((s.setEdxEax v).setDraws (s.draws + 1)).setAnswer (.value v))) ∧
    (s.gateCpl = 0 → ∃ v : Word, (s.reg32 1#4 ≠ 0#32 → v = s.xcr0) ∧
      exec .xsetbv s = .next (((s.setXcr0 v).setDraws (s.draws + 1)).setAnswer .permitted))

/-- 42_cr4_gated.md R155, R156: with OSXSAVE = 1 XSAVE and XRSTOR complete at any privilege level. XSAVE writes memory
alone, within its image; XRSTOR writes the media state alone, and no memory. The model's choices here: the image's size
and what is free in it, and that XRSTOR takes of its memory operand (30_encoding.md R103) the bytes of an image of XSAVE's
size and nothing else (entry 19); that neither asks for an alignment (entry 46); and that neither raises a page fault
of its own (entry 42). -/
def Obligations.XsaveAndXrstorComplete : Prop :=
  ∀ (s : State) (op : MemOperand), s.rflags.vm = false → s.osxsave = true →
    (∃ t, exec (.xsave op) s = .next t ∧
      t = { s with mem := t.mem, draws := s.draws + 1, answer := .permitted } ∧
      ∀ a, (∀ i < Config.xsaveBytes s.xcr0 s.edxEax, s.imageAddress op i ≠ a) →
        memRead t.mem a = memRead s.mem a) ∧
    (∃ t, exec (.xrstor op) s = .next t ∧
      t = { s with media := t.media, draws := s.draws + 1, answer := .permitted }) ∧
    (∀ q : MemOperand, (∀ i < Config.xsaveBytes s.xcr0 s.edxEax,
        memRead s.mem (s.imageAddress q i) = memRead s.mem (s.imageAddress op i)) →
      exec (.xrstor q) s = exec (.xrstor op) s)

/-- 42_cr4_gated.md R153 to R156: with OSXSAVE = 0 XGETBV, XSETBV, XSAVE and XRSTOR are `NotPermitted`; with OSXSAVE = 1
XSETBV still is above privilege level 0. -/
def Obligations.XsaveFamilyFaults : Prop :=
  ∀ (s : State) (op : MemOperand), s.rflags.vm = false →
    (s.osxsave = false → ∀ i, i = .xgetbv ∨ i = .xsetbv ∨ i = .xsave op ∨ i = .xrstor op →
      exec i s = .fault .notPermitted) ∧
    (s.osxsave = true → s.gateCpl ≠ 0 → exec .xsetbv s = .fault .notPermitted)

/-! ## Instructions gated by EFER -/

/-- 43_efer_gated.md R170, R171: with SCE = 1 SYSCALL is permitted at any level and SYSRET at privilege level 0; the gate
changes nothing (data path out of scope, entry 32). With SCE = 0 both are `NotPermitted`, and SYSRET above level 0. -/
def Obligations.SyscallAndSysret : Prop :=
  ∀ s : State, s.rflags.vm = false →
    (s.sce = true → exec .syscall s = .next (s.setAnswer .permitted)) ∧
    (s.sce = true → s.gateCpl = 0 → exec .sysret s = .next (s.setAnswer .permitted)) ∧
    (s.sce = true → s.gateCpl ≠ 0 → exec .sysret s = .fault .notPermitted) ∧
    (s.sce = false → exec .syscall s = .fault .notPermitted ∧ exec .sysret s = .fault .notPermitted)

/-- 43_efer_gated.md R172: with SVME = 1 every SVM instruction is permitted; the gate changes nothing (data path out of
scope, entry 32). With SVME = 0 every one is #UD. -/
def Obligations.SvmGate : Prop :=
  ∀ (s : State) (i : Instr), s.rflags.vm = false →
    i ∈ [.vmrun, .vmmcall, .vmload, .vmsave, .stgi, .clgi, .skinit, .invlpga] →
    (s.svme = true → exec i s = .next (s.setAnswer .permitted)) ∧
    (s.svme = false → exec i s = .fault .invalidOpcode)

/-- 10_state.md R44: SVME is bit 12 of EFER and resets to 0. While it is 0 every SVM instruction is #UD, while it is 1
none is; and with VM_CR.SVME_DISABLE set no WRMSR leaves it set. (Of turning it off under a guest the rule says only
that the effect is undefined: `WrmsrRefusals` has that, D26.) That each completes where the gate permits, its data
path left out, is the model's choice (entry 32). -/
def Obligations.SvmeEnablesSvm : Prop :=
  State.reset.efer.getLsbD 12 = false ∧
  ∀ s t : State,
    (∀ i : Instr, s.rflags.vm = false →
      i ∈ [.vmrun, .vmmcall, .vmload, .vmsave, .stgi, .clgi, .skinit, .invlpga] →
      (s.efer.getLsbD 12 = false → exec i s = .fault .invalidOpcode) ∧
      (s.efer.getLsbD 12 = true → ∃ u, exec i s = .next u)) ∧
    (exec .wrmsr s = .next t → s.vmCr.svmeDisable = true → t.efer.getLsbD 12 = false)

/-- 10_state.md R40: SCE is bit 0 of EFER. Setting it enables SYSCALL and SYSRET: SYSCALL completes exactly while it is 1,
SYSRET at privilege level 0 exactly while it is 1. That they complete where the gate permits, their data path left out,
is the model's choice (entry 32). -/
def Obligations.SceEnablesSyscall : Prop :=
  ∀ s : State, s.rflags.vm = false →
    ((∃ t, exec .syscall s = .next t) ↔ s.efer.getLsbD 0 = true) ∧
    (s.gateCpl = 0 → ((∃ t, exec .sysret s = .next t) ↔ s.efer.getLsbD 0 = true))

/-- 43_efer_gated.md R174: CPUID completes whatever CR4 and EFER hold, and for function 8000_0001h tells NX, FFXSR, long
mode and SVM (bit positions: entry 30). The model's choices here: the function number stands in EAX, the instruction
writes EAX, EBX, ECX and EDX and nothing else (entry 30), and it zeroes their upper halves (entry 35). -/
def Obligations.CpuidCompletes : Prop :=
  ∀ s : State, s.rflags.vm = false → ∃ a b c d : BitVec 32,
    exec .cpuid s = .next (((((s.setReg32 0#4 a).setReg32 3#4 b).setReg32 1#4 c).setReg32 2#4 d).setAnswer
      .permitted) ∧
    (s.reg32 0#4 = 0x80000001#32 → d.getLsbD 20 = s.params.hasNx ∧ d.getLsbD 25 = s.params.hasFfxsr ∧
      (d.getLsbD 29 = true ↔ s.params.arch = .x86_64) ∧ c.getLsbD 2 = s.params.hasSvm)

/-! ## Hardware events -/

/-- 20_memory.md R80: when a page fault is raised, a step of the hardware writes the faulting linear address,
zero-extended from the variant's width, to CR2, and no other register. That the turn answers a next state, with the
exception taken left for the step after it, is the model's choice (entry 24), where 60_exceptions.md R182 (D19) has the
fault as the outcome. -/
def Obligations.PageFaultLoadsCr2 : Prop :=
  ∀ (s : State) (la : Word) (ts : List Turn),
    s.raised = none → s.schedule = .event (.pageFault la) :: ts → s.pg = true →
    ∃ t, step s = .next t ∧
      t.cr2 = (if s.params.arch = .x86_32 then zext64 (low32 la) else la) ∧
      t = { s with cr2 := t.cr2, schedule := ts, raised := t.raised }

/-- 60_exceptions.md R182, R190 (D19; entries 24, 38): a page-fault turn takes the exception on the address CR2 got, and
the next step is that fault; with paging off the turn is refused. -/
def Obligations.PageFaultEndsRun : Prop :=
  ∀ (s : State) (la : Word) (ts : List Turn), s.raised = none → s.schedule = .event (.pageFault la) :: ts →
    (s.pg = true → ∃ t, step s = .next t ∧ step t = .fault (.pageFault t.cr2)) ∧
    (s.pg = false → step s = .refused .pageFaultWithPagingOff)

/-- 60_exceptions.md R183: a machine-check error is recorded in its bank if and only if the bank enables it, whether or
not MCE is set: the status register gets its new content, every other bank and register stays. A correctable one goes
on; an uncorrectable one is #MC when MCE = 1, which the next step ends the run with, and refused when MCE = 0 (D28, the
spec's own decision). That the one event takes two steps, the record and then the fault, is the model's choice
(entry 24). -/
def Obligations.MachineCheckErrors : Prop :=
  ∀ (s : State) (bank : Nat) (error : Content),
    takeEvent (.machineCheck bank error false) s = .next (s.recordError bank error) ∧
    (s.mce = true → takeEvent (.machineCheck bank error true) s =
      .next ((s.recordError bank error).setRaised (some .machineCheck))) ∧
    (∀ ts, s.raised = none → s.schedule = .event (.machineCheck bank error true) :: ts → s.mce = true →
      ∃ t, step s = .next t ∧ t = { s with
          mcBanks := (s.recordError bank error).mcBanks, schedule := ts, raised := some .machineCheck } ∧
        step t = .fault .machineCheck) ∧
    (s.mce = false → takeEvent (.machineCheck bank error true) s = .refused .machineCheckWithMceClear) ∧
    s.recordError bank error = { s with mcBanks := (s.recordError bank error).mcBanks } ∧
    (∀ b, b ≠ bank → storeGet bankDefault (s.recordError bank error).mcBanks b =
      storeGet bankDefault s.mcBanks b) ∧
    (Config.mcErrorEnabled (storeGet bankDefault s.mcBanks bank).control error = false →
      s.recordError bank error = s) ∧
    (storeWf bankDefault s.mcBanks = true →
      Config.mcErrorEnabled (storeGet bankDefault s.mcBanks bank).control error = true →
      storeGet bankDefault (s.recordError bank error).mcBanks bank =
        ⟨(storeGet bankDefault s.mcBanks bank).control,
          Config.mcStatusAfter (storeGet bankDefault s.mcBanks bank).status error⟩)

/-- 10_state.md R51, 41_efer_access.md R136, 30_encoding.md R107: the inputs. A step whose turn is an input (entry 44)
writes that field and removes the turn, and changes nothing else. While long mode is active the L bit then chooses
64-bit or compatibility mode; the D bit the default operand size, 16 or 32 bits, outside real mode (16 bits) and 64-bit mode
(32 bits). Which value of the L bit is which mode, and the operand sizes, are general knowledge in those rules; which
value of the D bit is which size is the model's (entry 44). -/
def Obligations.InputsWriteTheirField : Prop :=
  ∀ (s : State) (b : Bool) (ts : List Turn), s.raised = none →
    (s.schedule = .event (.inputCsL b) :: ts → ∃ t, step s = .next t ∧ t = { s with csL := b, schedule := ts } ∧
      t.mode64 = (s.lma && b) ∧ t.compatMode = (s.lma && !b)) ∧
    (s.schedule = .event (.inputCsD b) :: ts → ∃ t, step s = .next t ∧ t = { s with csD := b, schedule := ts } ∧
      (s.mode64 = true → t.operandBits = 32) ∧ (s.mode64 = false → s.pe = false → t.operandBits = 16) ∧
      (s.mode64 = false → s.pe = true → t.operandBits = if b then 32 else 16)) ∧
    (s.schedule = .event (.inputGuestRunning b) :: ts →
      step s = .next { s with guestRunning := b, schedule := ts })

/-- 10_state.md R61, 20_memory.md R78: the TLB's own steps. Caching a translation adds that entry alone, while paging is
on, global only when PGE = 1 (entry 22); dropping an entry removes it alone. What an entry holds besides
its global flag, and that PGE counts at the fill, are the model's choices (entry 22). -/
def Obligations.TlbSteps : Prop :=
  ∀ (s : State) (la pa : Word) (g : Bool) (e : TlbEntry),
    (∃ t, takeEvent (.tlbFill la pa g) s = .next t ∧ t = { s with tlb := t.tlb } ∧
      ∀ x, x ∈ t.tlb ↔ x ∈ s.tlb ∨ (s.pg = true ∧ x = ⟨la, pa, g && s.pge⟩)) ∧
    (∃ t, takeEvent (.tlbDrop e) s = .next t ∧ t = { s with tlb := t.tlb } ∧
      ∀ x, x ∈ t.tlb ↔ x ∈ s.tlb ∧ x ≠ e)

/-! ## Paging -/

/-- 20_memory.md R72, R73, R82 with 10_state.md R22, R23: with paging on in legacy mode the top-level table has 1024
entries of 4 bytes at CR3[31:12] followed by twelve zeros, two levels, without PAE; 4 entries of 8 bytes at CR3[31:5]
followed by five zeros, three levels, with PAE. It is aligned to its 4 KB or 32 bytes. None with paging off or in long
mode (entry 47). With PAE a page of 2 MB, 200000h bytes, is available besides, whatever PSE is (R76, 10_state.md R31).
The physical address of a linear address does not depend on the bits that have no behaviour: PWT and PCD (R77), LMSLE
(R94), the unnamed bits of CR0 (10_state.md R15). In long mode, where R24 leaves the whole format of CR3 open, that it
is bits 3 and 4 of CR3 that do not count is the model's choice (entry 47). -/
def Obligations.TopLevelTable : Prop :=
  ∀ s : State,
    (s.pg = true → s.lma = false → s.pae = false → ∃ tbl, s.topTable = some tbl ∧
      tbl.base = (0#32 ++ s.cr3.extractLsb' 12 20 ++ 0#12 : BitVec 64) ∧ tbl.entries = 1024 ∧
      tbl.entryBytes = 4 ∧ tbl.levels = 2 ∧ tbl.base.toNat % 4096 = 0) ∧
    (s.pg = true → s.lma = false → s.pae = true → ∃ tbl, s.topTable = some tbl ∧
      tbl.base = (0#32 ++ s.cr3.extractLsb' 5 27 ++ 0#5 : BitVec 64) ∧ tbl.entries = 4 ∧
      tbl.entryBytes = 8 ∧ tbl.levels = 3 ∧ tbl.base.toNat % 32 = 0) ∧
    (s.pg = false ∨ s.lma = true → s.topTable = none) ∧
    (s.cr4.getLsbD 5 = true → s.superpage = some 0x200000) ∧ (s.cr4.getLsbD 5 = false → s.superpage = none) ∧
    (∀ v : Word, (∀ k < 64, k ≠ 3 → k ≠ 4 → v.getLsbD k = s.cr3.getLsbD k) →
      ∀ a, (s.setCr3 v).translate a = s.translate a) ∧
    (∀ v : Word, (∀ k < 64, k ≠ 13 → v.getLsbD k = s.efer.getLsbD k) →
      ∀ a, (s.setEfer v).translate a = s.translate a) ∧
    (∀ v : Word, (∀ k < 64, k = 0 ∨ k = 4 ∨ 31 ≤ k → v.getLsbD k = s.cr0.getLsbD k) →
      ∀ a, (s.setCr0 v).translate a = s.translate a)

/-! ## Whole-machine rules -/

/-- 10_state.md R52: no step writes CPL. -/
def Obligations.CplNeverWritten : Prop :=
  ∀ s t : State, step s = .next t → t.cpl = s.cpl

/-- 10_state.md R53, R60, 00_scope.md R6: no step writes IOPL, VM, VIP, VM_CR or the parameters: no operation of the spec
writes them. That none writes the redirection bitmap holds because the model keeps it apart from memory (entry 45), and
that none writes bit 4 of CR0 is D4 (entry 11). -/
def Obligations.UnwrittenState : Prop :=
  ∀ s t : State, step s = .next t → t.rflags.iopl = s.rflags.iopl ∧ t.rflags.vm = s.rflags.vm ∧
    t.rflags.vip = s.rflags.vip ∧ t.vmCr = s.vmCr ∧ t.redirect = s.redirect ∧ t.params = s.params ∧
    t.cr0.getLsbD 4 = s.cr0.getLsbD 4

/-- 40_cr_access.md R110, 41_efer_access.md R130, R131 (D10): no step taken above CPL 0 changes CR0, CR3, CR4 or EFER,
none changes CR2 but one that takes a page fault, and, where the L bit is not an input of that step, none changes the
mode. -/
def Obligations.UserCannotChangeSystemRegisters : Prop :=
  ∀ s t : State, step s = .next t → s.cpl ≠ 0 →
    t.cr0 = s.cr0 ∧ t.cr3 = s.cr3 ∧ t.cr4 = s.cr4 ∧ t.efer = s.efer ∧
    (t.cr2 = s.cr2 ∨ ∃ la, t.raised = some (.pageFault la) ∧ t.cr2 = la) ∧
    (t.csL = s.csL → t.mode64 = s.mode64 ∧ t.compatMode = s.compatMode)

/-- The frame of every instruction (INDEX.md; R52; 42_cr4_gated.md, 43_efer_gated.md): what exec leaves unchanged, and
which instructions write what they may. Clauses that rest on the model's choices: the gates change nothing else (entry
32); MOV CR4,r writes CR3 too (entry 34), and neither it nor MOV CR0,r nor WRMSR the TLB (entry 22); a counter changes
when it is read, and then alone (entries 13, 14); RDTSCP writes ECX (entry 31); CPUID writes registers 0 to 3 and no other
(entry 30); XSETBV alone writes XCR0, and XRSTOR does not (entries 15, 19). -/
def Obligations.InstructionFrames : Prop :=
  ∀ (i : Instr) (s t : State), exec i s = .next t →
    (t.code = s.code ∧ t.schedule = s.schedule ∧ t.raised = s.raised ∧ t.csL = s.csL ∧
      t.csD = s.csD ∧ t.guestRunning = s.guestRunning ∧ t.mcBanks = s.mcBanks) ∧
    (t.cr0 ≠ s.cr0 → ∃ m r, i = .movCrR m 0#4 r) ∧
    (t.cr2 ≠ s.cr2 → ∃ m r, i = .movCrR m 2#4 r) ∧
    (t.cr3 ≠ s.cr3 → ∃ m r, i = .movCrR m 3#4 r ∨ i = .movCrR m 4#4 r) ∧
    (t.tlb ≠ s.tlb → ∃ m r, i = .movCrR m 3#4 r) ∧
    (t.cr4 ≠ s.cr4 → ∃ m r, i = .movCrR m 4#4 r) ∧
    (t.efer ≠ s.efer → i = .wrmsr ∨ ∃ m r, i = .movCrR m 0#4 r) ∧
    (t.rflags ≠ s.rflags → i = .cli ∨ i = .sti) ∧
    (t.dr6 ≠ s.dr6 ∨ t.dr7 ≠ s.dr7 → ∃ m n r, i = .movDrR m n r) ∧
    (t.mem ≠ s.mem → (∃ op, i = .fxsave op) ∨ ∃ op, i = .xsave op) ∧
    (t.media ≠ s.media → (∃ op, i = .fxrstor op) ∨ ∃ op, i = .xrstor op) ∧
    (t.xcr0 ≠ s.xcr0 → i = .xsetbv) ∧
    (t.tsc ≠ s.tsc → i = .rdtsc ∨ i = .rdtscp) ∧ (t.perf ≠ s.perf → i = .rdpmc) ∧
    (∀ q, t.getGpr q ≠ s.getGpr q →
      (∃ m n, i = .movRCr m n q ∨ i = .movRDr m n q) ∨
      ((q = 0#4 ∨ q = 2#4) ∧ (i = .rdmsr ∨ i = .rdtsc ∨ i = .rdtscp ∨ i = .rdpmc ∨ i = .xgetbv)) ∨
      (q = 1#4 ∧ i = .rdtscp) ∨ (q.toNat ≤ 3 ∧ i = .cpuid))

/-- 10_state.md R42, R50: EFER.LMA is read-only to software. Of the instructions only MOV CR0,r changes it, and after any
step from a state with LMA = LME & PG it is LME & PG again (D7). -/
def Obligations.LmaFollowsLmeAndPg : Prop :=
  (∀ (i : Instr) (s t : State), exec i s = .next t → t.lma ≠ s.lma → ∃ m r, i = .movCrR m 0#4 r) ∧
  (∀ s t : State, step s = .next t → s.lma = (s.lme && s.pg) → t.lma = (t.lme && t.pg))

/-- 10_state.md R64, CR3[11:5] = 0 while PAE = 0 among them (entry 34), and the clauses of `State.Inv` that name their own
rules: every step keeps the invariants of the state. -/
def Obligations.StepKeepsInvariants : Prop :=
  ∀ s t : State, State.Inv s → step s = .next t → State.Inv t

/-- 70_reset_and_hazards.md R210 (D14) with 10_state.md R64: the reset state has EFER.SVME = 0 and satisfies the
invariants, CR3[11:5] = 0 while PAE = 0 among them. Its other values are the model's (entries 9 and 10). -/
def Obligations.ResetState : Prop :=
  State.reset.svme = false ∧ State.Inv State.reset ∧
    (State.reset.pae = false → State.reset.cr3.extractLsb' 5 7 = 0#7)

/-- 10_state.md R50, 41_efer_access.md R131 (D2): long mode does not exist in the x86_32 variant. -/
def Obligations.NoLongModeInX86_32 : Prop :=
  ∀ s t : State, State.Inv s → s.params.arch = .x86_32 → step s = .next t →
    t.lma = false ∧ t.mode64 = false ∧ t.compatMode = false

/-! ## Decoding and stepping -/

/-- 30_encoding.md R101 to R104, R107: decoding the encoding of a well-formed instruction gives it back with the bytes
that follow, in every code it can be encoded in (16-bit, 32-bit, 64-bit mode; address sizes: entry 6). -/
def Obligations.DecodeOfEncode : Prop :=
  ∀ (c : CodeSize) (i : Instr) (rest : List Byte), i.wf = true → i.fits c = true →
    decode c (encode c i ++ rest) = .ok (i, rest)

/-- 30_encoding.md R101, R106, R107: what decodes is well-formed, can be encoded in that code (so REX operands come in
64-bit mode only), and takes 1 to 15 bytes off the head. That a memory operand has one of the code's two address sizes,
and the SIB and displacement bytes `Instr.wf` asks for, is the model's choice (entry 6). -/
def Obligations.DecodedIsWellFormed : Prop :=
  ∀ (c : CodeSize) (bs rest : List Byte) (i : Instr), decode c bs = .ok (i, rest) →
    i.wf = true ∧ i.fits c = true ∧
      ∃ head, bs = head ++ rest ∧ 1 ≤ head.length ∧ head.length ≤ 15

/-- 30_encoding.md R106: 0F AE with `mod` = 11 is not in this spec. A LOCK byte, with any operand-size bytes after it,
before a well-formed instruction of this spec is #UD within the 15 bytes of R101; before MOV to or from a control
register it is #UD, or refused where it reaches CR8 (entry 5). Beyond 15 bytes it is no instruction and refused
(entry 4, the model's order). -/
def Obligations.IllegalEncodings : Prop :=
  (∀ (c : CodeSize) (b : Byte) (rest : List Byte), b.extractLsb' 6 2 = 3#2 →
    decode c (0x0F#8 :: 0xAE#8 :: b :: rest) = .error .notInSpec) ∧
  (∀ (s : State) (i : Instr) (k : Nat) (rest : List Byte), i.wf = true → i.fits s.codeSize = true →
    s.raised = none → s.schedule = [] →
    s.code = 0xF0#8 :: (List.replicate k 0x66#8 ++ (encode s.codeSize i ++ rest)) →
    (1 + k + (encode s.codeSize i).length ≤ 15 →
      ((∀ m n r, i ≠ .movRCr m n r ∧ i ≠ .movCrR m n r) → step s = .fault .invalidOpcode) ∧
      ((∃ m n r, i = .movRCr m n r ∨ i = .movCrR m n r) →
        step s = .fault .invalidOpcode ∨ step s = .refused .lockReachesCr8)) ∧
    (15 < 1 + k + (encode s.codeSize i).length → step s = .refused .notInSpec))

/-- 30_encoding.md R104: words written out from the opcode table decode to the instructions they stand for, in the 16-bit
code of the reset state (entry 3). That the memory operand of the fifth has a 16-bit address is the model's choice
(entry 6). -/
def Obligations.TableWordsDecode : Prop :=
  decodeTableWord 24 0x0F20D9 = some (.movRCr 3#2 3#4 1#4) ∧
  decodeTableWord 24 0x0F22E3 = some (.movCrR 3#2 4#4 3#4) ∧
  decodeTableWord 16 0x0F30 = some .wrmsr ∧
  decodeTableWord 16 0xCD80 = some (.int 0x80#8) ∧
  decodeTableWord 24 0x0FAE08 = some (.fxrstor ⟨.a16, none, none, 0#2, 0#3, none, []⟩) ∧
  decodeTableWord 24 0x0F01D9 = some .vmmcall

/-- A step runs the decoded instruction (entry 1): when no exception was taken and it is the processor's turn, and the
program's head decodes to `i`, step is exec of `i` on the state past `i`'s bytes. -/
def Obligations.StepRunsDecoded : Prop :=
  ∀ (s : State) (i : Instr) (rest : List Byte), s.raised = none → s.code ≠ [] →
    decode s.codeSize s.code = .ok (i, rest) →
    (s.schedule = [] → step s = exec i (s.setCode rest)) ∧
    (∀ ts, s.schedule = .processor :: ts → step s = exec i ((s.setSchedule ts).setCode rest))

/-- 00_scope.md R9 (D24), 60_exceptions.md R190 (D19): the run ends after the last operation, and nothing runs after an
exception a hardware event has taken. Turns still listed when the bytes are used up are the model's (entry 23). -/
def Obligations.RunEnds : Prop :=
  ∀ s : State,
    (s.raised = none → s.schedule = [] → s.code = [] → step s = .fault .endOfProgram) ∧
    (∀ f, s.raised = some f → step s = .fault f)
end

