-- ==== Sys2Proof/Laws/Decode.lean ====
section
/-! SUPPORT. The decoder's parts: the fields of a ModRM byte, register numbers, and taking bytes. -/

namespace Sys2Proof

@[simp] theorem modOf_modRm (m : BitVec 2) (reg rm : BitVec 3) : modOf (modRm m reg rm) = m := by
  revert m reg rm; decide

@[simp] theorem regOf_modRm (m : BitVec 2) (reg rm : BitVec 3) : regOf (modRm m reg rm) = reg := by
  revert m reg rm; decide

@[simp] theorem rmOf_modRm (m : BitVec 2) (reg rm : BitVec 3) : rmOf (modRm m reg rm) = rm := by
  revert m reg rm; decide

/-- A register number is its field with its fourth bit. -/
theorem extendNumber_low3 (n : BitVec 4) : extendNumber (n.getLsbD 3) (low3 n) = n := by
  revert n; decide

/-- The same, with the fourth bit as simp writes it. -/
@[simp] theorem extendNumber_getElem_low3 (n : BitVec 4) : extendNumber n[3] (low3 n) = n :=
  extendNumber_low3 n

/-- Taking as many bytes as a list has. -/
theorem takeBytes_append (l rest : List Byte) : takeBytes l.length (l ++ rest) = some (l, rest) := by
  simp [takeBytes]

/-- A byte that is no legacy byte ends the scan. -/
theorem scanLegacy_stop {p : Legacy} {b : Byte} (bs : List Byte) (h : addLegacy p b = .none) :
    scanLegacy p (b :: bs) = (p, b :: bs) := by
  simp [scanLegacy, h]

/-- A memory operand that fits the code has its address size given by the 67h byte or its absence. -/
theorem asz_of_fits {op : MemOperand} {c : CodeSize} (h : op.fits c = true) :
    op.asz = if op.asz = c.addrSize then c.addrSize else c.otherAddrSize := by
  simp only [MemOperand.fits, Bool.and_eq_true, Bool.or_eq_true, beq_iff_eq] at h
  split
  · assumption
  · exact h.2.resolve_left ‹_›

/-- 16-bit addressing is in neither address size of 64-bit code. -/
theorem asz_c64 (p : Legacy) : p.asz .c64 ≠ .a16 := by
  unfold Legacy.asz
  split <;> decide

/-- What the legacy and REX bytes come to, and the opcode after them, decide the decoder's answer. -/
theorem decode_eq {c : CodeSize} {bs bs1 bs2 : List Byte} {p : Legacy} {rex : Option (BitVec 4)}
    (hs : scanLegacy .none bs = (p, bs1)) (hr : takeRex c bs1 = (rex, bs2)) :
    decode c bs =
      match decodeOpcode (p.asz c) p.seg rex bs2 with
      | .error e => .error e
      | .ok q =>
        match checkLegacy p (bs.length - q.2.length) q.1 with
        | some e => .error e
        | .none => .ok q := by
  obtain ⟨rfl, rfl⟩ : p = (scanLegacy .none bs).1 ∧ bs1 = (scanLegacy .none bs).2 := by simp [hs]
  obtain ⟨rfl, rfl⟩ : rex = (takeRex c (scanLegacy .none bs).2).1 ∧ bs2 = (takeRex c (scanLegacy .none bs).2).2 := by
    simp [hr]
  rfl

end Sys2Proof
end

