-- ==== Sys2Proof/Laws/State.lean ====
section
/-! SUPPORT. One lemma per field per update of the state, each true by rfl, so that no later proof unfolds a record
update; and reading a general register after writing one. -/

namespace Sys2Proof.Machine

section
variable (s : State) (v : Word)
@[simp] theorem State.setCr0_gpr : (s.setCr0 v).gpr = s.gpr := rfl
@[simp] theorem State.setCr0_cr0 : (s.setCr0 v).cr0 = v := rfl
@[simp] theorem State.setCr0_cr2 : (s.setCr0 v).cr2 = s.cr2 := rfl
@[simp] theorem State.setCr0_cr3 : (s.setCr0 v).cr3 = s.cr3 := rfl
@[simp] theorem State.setCr0_cr4 : (s.setCr0 v).cr4 = s.cr4 := rfl
@[simp] theorem State.setCr0_efer : (s.setCr0 v).efer = s.efer := rfl
@[simp] theorem State.setCr0_cpl : (s.setCr0 v).cpl = s.cpl := rfl
@[simp] theorem State.setCr0_csL : (s.setCr0 v).csL = s.csL := rfl
@[simp] theorem State.setCr0_csD : (s.setCr0 v).csD = s.csD := rfl
@[simp] theorem State.setCr0_rflags : (s.setCr0 v).rflags = s.rflags := rfl
@[simp] theorem State.setCr0_dr6 : (s.setCr0 v).dr6 = s.dr6 := rfl
@[simp] theorem State.setCr0_dr7 : (s.setCr0 v).dr7 = s.dr7 := rfl
@[simp] theorem State.setCr0_tsc : (s.setCr0 v).tsc = s.tsc := rfl
@[simp] theorem State.setCr0_perf : (s.setCr0 v).perf = s.perf := rfl
@[simp] theorem State.setCr0_xcr0 : (s.setCr0 v).xcr0 = s.xcr0 := rfl
@[simp] theorem State.setCr0_vmCr : (s.setCr0 v).vmCr = s.vmCr := rfl
@[simp] theorem State.setCr0_mcBanks : (s.setCr0 v).mcBanks = s.mcBanks := rfl
@[simp] theorem State.setCr0_media : (s.setCr0 v).media = s.media := rfl
@[simp] theorem State.setCr0_redirect : (s.setCr0 v).redirect = s.redirect := rfl
@[simp] theorem State.setCr0_tlb : (s.setCr0 v).tlb = s.tlb := rfl
@[simp] theorem State.setCr0_mem : (s.setCr0 v).mem = s.mem := rfl
@[simp] theorem State.setCr0_guestRunning : (s.setCr0 v).guestRunning = s.guestRunning := rfl
@[simp] theorem State.setCr0_params : (s.setCr0 v).params = s.params := rfl
@[simp] theorem State.setCr0_code : (s.setCr0 v).code = s.code := rfl
@[simp] theorem State.setCr0_schedule : (s.setCr0 v).schedule = s.schedule := rfl
@[simp] theorem State.setCr0_raised : (s.setCr0 v).raised = s.raised := rfl
@[simp] theorem State.setCr0_answer : (s.setCr0 v).answer = s.answer := rfl
@[simp] theorem State.setCr0_draws : (s.setCr0 v).draws = s.draws := rfl
end

section
variable (s : State) (v : Word)
@[simp] theorem State.setCr2_gpr : (s.setCr2 v).gpr = s.gpr := rfl
@[simp] theorem State.setCr2_cr0 : (s.setCr2 v).cr0 = s.cr0 := rfl
@[simp] theorem State.setCr2_cr2 : (s.setCr2 v).cr2 = v := rfl
@[simp] theorem State.setCr2_cr3 : (s.setCr2 v).cr3 = s.cr3 := rfl
@[simp] theorem State.setCr2_cr4 : (s.setCr2 v).cr4 = s.cr4 := rfl
@[simp] theorem State.setCr2_efer : (s.setCr2 v).efer = s.efer := rfl
@[simp] theorem State.setCr2_cpl : (s.setCr2 v).cpl = s.cpl := rfl
@[simp] theorem State.setCr2_csL : (s.setCr2 v).csL = s.csL := rfl
@[simp] theorem State.setCr2_csD : (s.setCr2 v).csD = s.csD := rfl
@[simp] theorem State.setCr2_rflags : (s.setCr2 v).rflags = s.rflags := rfl
@[simp] theorem State.setCr2_dr6 : (s.setCr2 v).dr6 = s.dr6 := rfl
@[simp] theorem State.setCr2_dr7 : (s.setCr2 v).dr7 = s.dr7 := rfl
@[simp] theorem State.setCr2_tsc : (s.setCr2 v).tsc = s.tsc := rfl
@[simp] theorem State.setCr2_perf : (s.setCr2 v).perf = s.perf := rfl
@[simp] theorem State.setCr2_xcr0 : (s.setCr2 v).xcr0 = s.xcr0 := rfl
@[simp] theorem State.setCr2_vmCr : (s.setCr2 v).vmCr = s.vmCr := rfl
@[simp] theorem State.setCr2_mcBanks : (s.setCr2 v).mcBanks = s.mcBanks := rfl
@[simp] theorem State.setCr2_media : (s.setCr2 v).media = s.media := rfl
@[simp] theorem State.setCr2_redirect : (s.setCr2 v).redirect = s.redirect := rfl
@[simp] theorem State.setCr2_tlb : (s.setCr2 v).tlb = s.tlb := rfl
@[simp] theorem State.setCr2_mem : (s.setCr2 v).mem = s.mem := rfl
@[simp] theorem State.setCr2_guestRunning : (s.setCr2 v).guestRunning = s.guestRunning := rfl
@[simp] theorem State.setCr2_params : (s.setCr2 v).params = s.params := rfl
@[simp] theorem State.setCr2_code : (s.setCr2 v).code = s.code := rfl
@[simp] theorem State.setCr2_schedule : (s.setCr2 v).schedule = s.schedule := rfl
@[simp] theorem State.setCr2_raised : (s.setCr2 v).raised = s.raised := rfl
@[simp] theorem State.setCr2_answer : (s.setCr2 v).answer = s.answer := rfl
@[simp] theorem State.setCr2_draws : (s.setCr2 v).draws = s.draws := rfl
end

section
variable (s : State) (v : Word)
@[simp] theorem State.setCr3_gpr : (s.setCr3 v).gpr = s.gpr := rfl
@[simp] theorem State.setCr3_cr0 : (s.setCr3 v).cr0 = s.cr0 := rfl
@[simp] theorem State.setCr3_cr2 : (s.setCr3 v).cr2 = s.cr2 := rfl
@[simp] theorem State.setCr3_cr3 : (s.setCr3 v).cr3 = v := rfl
@[simp] theorem State.setCr3_cr4 : (s.setCr3 v).cr4 = s.cr4 := rfl
@[simp] theorem State.setCr3_efer : (s.setCr3 v).efer = s.efer := rfl
@[simp] theorem State.setCr3_cpl : (s.setCr3 v).cpl = s.cpl := rfl
@[simp] theorem State.setCr3_csL : (s.setCr3 v).csL = s.csL := rfl
@[simp] theorem State.setCr3_csD : (s.setCr3 v).csD = s.csD := rfl
@[simp] theorem State.setCr3_rflags : (s.setCr3 v).rflags = s.rflags := rfl
@[simp] theorem State.setCr3_dr6 : (s.setCr3 v).dr6 = s.dr6 := rfl
@[simp] theorem State.setCr3_dr7 : (s.setCr3 v).dr7 = s.dr7 := rfl
@[simp] theorem State.setCr3_tsc : (s.setCr3 v).tsc = s.tsc := rfl
@[simp] theorem State.setCr3_perf : (s.setCr3 v).perf = s.perf := rfl
@[simp] theorem State.setCr3_xcr0 : (s.setCr3 v).xcr0 = s.xcr0 := rfl
@[simp] theorem State.setCr3_vmCr : (s.setCr3 v).vmCr = s.vmCr := rfl
@[simp] theorem State.setCr3_mcBanks : (s.setCr3 v).mcBanks = s.mcBanks := rfl
@[simp] theorem State.setCr3_media : (s.setCr3 v).media = s.media := rfl
@[simp] theorem State.setCr3_redirect : (s.setCr3 v).redirect = s.redirect := rfl
@[simp] theorem State.setCr3_tlb : (s.setCr3 v).tlb = s.tlb := rfl
@[simp] theorem State.setCr3_mem : (s.setCr3 v).mem = s.mem := rfl
@[simp] theorem State.setCr3_guestRunning : (s.setCr3 v).guestRunning = s.guestRunning := rfl
@[simp] theorem State.setCr3_params : (s.setCr3 v).params = s.params := rfl
@[simp] theorem State.setCr3_code : (s.setCr3 v).code = s.code := rfl
@[simp] theorem State.setCr3_schedule : (s.setCr3 v).schedule = s.schedule := rfl
@[simp] theorem State.setCr3_raised : (s.setCr3 v).raised = s.raised := rfl
@[simp] theorem State.setCr3_answer : (s.setCr3 v).answer = s.answer := rfl
@[simp] theorem State.setCr3_draws : (s.setCr3 v).draws = s.draws := rfl
end

section
variable (s : State) (v : Word)
@[simp] theorem State.setCr4_gpr : (s.setCr4 v).gpr = s.gpr := rfl
@[simp] theorem State.setCr4_cr0 : (s.setCr4 v).cr0 = s.cr0 := rfl
@[simp] theorem State.setCr4_cr2 : (s.setCr4 v).cr2 = s.cr2 := rfl
@[simp] theorem State.setCr4_cr3 : (s.setCr4 v).cr3 = s.cr3 := rfl
@[simp] theorem State.setCr4_cr4 : (s.setCr4 v).cr4 = v := rfl
@[simp] theorem State.setCr4_efer : (s.setCr4 v).efer = s.efer := rfl
@[simp] theorem State.setCr4_cpl : (s.setCr4 v).cpl = s.cpl := rfl
@[simp] theorem State.setCr4_csL : (s.setCr4 v).csL = s.csL := rfl
@[simp] theorem State.setCr4_csD : (s.setCr4 v).csD = s.csD := rfl
@[simp] theorem State.setCr4_rflags : (s.setCr4 v).rflags = s.rflags := rfl
@[simp] theorem State.setCr4_dr6 : (s.setCr4 v).dr6 = s.dr6 := rfl
@[simp] theorem State.setCr4_dr7 : (s.setCr4 v).dr7 = s.dr7 := rfl
@[simp] theorem State.setCr4_tsc : (s.setCr4 v).tsc = s.tsc := rfl
@[simp] theorem State.setCr4_perf : (s.setCr4 v).perf = s.perf := rfl
@[simp] theorem State.setCr4_xcr0 : (s.setCr4 v).xcr0 = s.xcr0 := rfl
@[simp] theorem State.setCr4_vmCr : (s.setCr4 v).vmCr = s.vmCr := rfl
@[simp] theorem State.setCr4_mcBanks : (s.setCr4 v).mcBanks = s.mcBanks := rfl
@[simp] theorem State.setCr4_media : (s.setCr4 v).media = s.media := rfl
@[simp] theorem State.setCr4_redirect : (s.setCr4 v).redirect = s.redirect := rfl
@[simp] theorem State.setCr4_tlb : (s.setCr4 v).tlb = s.tlb := rfl
@[simp] theorem State.setCr4_mem : (s.setCr4 v).mem = s.mem := rfl
@[simp] theorem State.setCr4_guestRunning : (s.setCr4 v).guestRunning = s.guestRunning := rfl
@[simp] theorem State.setCr4_params : (s.setCr4 v).params = s.params := rfl
@[simp] theorem State.setCr4_code : (s.setCr4 v).code = s.code := rfl
@[simp] theorem State.setCr4_schedule : (s.setCr4 v).schedule = s.schedule := rfl
@[simp] theorem State.setCr4_raised : (s.setCr4 v).raised = s.raised := rfl
@[simp] theorem State.setCr4_answer : (s.setCr4 v).answer = s.answer := rfl
@[simp] theorem State.setCr4_draws : (s.setCr4 v).draws = s.draws := rfl
end

section
variable (s : State) (v : Word)
@[simp] theorem State.setEfer_gpr : (s.setEfer v).gpr = s.gpr := rfl
@[simp] theorem State.setEfer_cr0 : (s.setEfer v).cr0 = s.cr0 := rfl
@[simp] theorem State.setEfer_cr2 : (s.setEfer v).cr2 = s.cr2 := rfl
@[simp] theorem State.setEfer_cr3 : (s.setEfer v).cr3 = s.cr3 := rfl
@[simp] theorem State.setEfer_cr4 : (s.setEfer v).cr4 = s.cr4 := rfl
@[simp] theorem State.setEfer_efer : (s.setEfer v).efer = v := rfl
@[simp] theorem State.setEfer_cpl : (s.setEfer v).cpl = s.cpl := rfl
@[simp] theorem State.setEfer_csL : (s.setEfer v).csL = s.csL := rfl
@[simp] theorem State.setEfer_csD : (s.setEfer v).csD = s.csD := rfl
@[simp] theorem State.setEfer_rflags : (s.setEfer v).rflags = s.rflags := rfl
@[simp] theorem State.setEfer_dr6 : (s.setEfer v).dr6 = s.dr6 := rfl
@[simp] theorem State.setEfer_dr7 : (s.setEfer v).dr7 = s.dr7 := rfl
@[simp] theorem State.setEfer_tsc : (s.setEfer v).tsc = s.tsc := rfl
@[simp] theorem State.setEfer_perf : (s.setEfer v).perf = s.perf := rfl
@[simp] theorem State.setEfer_xcr0 : (s.setEfer v).xcr0 = s.xcr0 := rfl
@[simp] theorem State.setEfer_vmCr : (s.setEfer v).vmCr = s.vmCr := rfl
@[simp] theorem State.setEfer_mcBanks : (s.setEfer v).mcBanks = s.mcBanks := rfl
@[simp] theorem State.setEfer_media : (s.setEfer v).media = s.media := rfl
@[simp] theorem State.setEfer_redirect : (s.setEfer v).redirect = s.redirect := rfl
@[simp] theorem State.setEfer_tlb : (s.setEfer v).tlb = s.tlb := rfl
@[simp] theorem State.setEfer_mem : (s.setEfer v).mem = s.mem := rfl
@[simp] theorem State.setEfer_guestRunning : (s.setEfer v).guestRunning = s.guestRunning := rfl
@[simp] theorem State.setEfer_params : (s.setEfer v).params = s.params := rfl
@[simp] theorem State.setEfer_code : (s.setEfer v).code = s.code := rfl
@[simp] theorem State.setEfer_schedule : (s.setEfer v).schedule = s.schedule := rfl
@[simp] theorem State.setEfer_raised : (s.setEfer v).raised = s.raised := rfl
@[simp] theorem State.setEfer_answer : (s.setEfer v).answer = s.answer := rfl
@[simp] theorem State.setEfer_draws : (s.setEfer v).draws = s.draws := rfl
end

section
variable (s : State) (v : Bool)
@[simp] theorem State.setIf_gpr : (s.setIf v).gpr = s.gpr := rfl
@[simp] theorem State.setIf_cr0 : (s.setIf v).cr0 = s.cr0 := rfl
@[simp] theorem State.setIf_cr2 : (s.setIf v).cr2 = s.cr2 := rfl
@[simp] theorem State.setIf_cr3 : (s.setIf v).cr3 = s.cr3 := rfl
@[simp] theorem State.setIf_cr4 : (s.setIf v).cr4 = s.cr4 := rfl
@[simp] theorem State.setIf_efer : (s.setIf v).efer = s.efer := rfl
@[simp] theorem State.setIf_cpl : (s.setIf v).cpl = s.cpl := rfl
@[simp] theorem State.setIf_csL : (s.setIf v).csL = s.csL := rfl
@[simp] theorem State.setIf_csD : (s.setIf v).csD = s.csD := rfl
@[simp] theorem State.setIf_rflags : (s.setIf v).rflags = { s.rflags with ifl := v } := rfl
@[simp] theorem State.setIf_dr6 : (s.setIf v).dr6 = s.dr6 := rfl
@[simp] theorem State.setIf_dr7 : (s.setIf v).dr7 = s.dr7 := rfl
@[simp] theorem State.setIf_tsc : (s.setIf v).tsc = s.tsc := rfl
@[simp] theorem State.setIf_perf : (s.setIf v).perf = s.perf := rfl
@[simp] theorem State.setIf_xcr0 : (s.setIf v).xcr0 = s.xcr0 := rfl
@[simp] theorem State.setIf_vmCr : (s.setIf v).vmCr = s.vmCr := rfl
@[simp] theorem State.setIf_mcBanks : (s.setIf v).mcBanks = s.mcBanks := rfl
@[simp] theorem State.setIf_media : (s.setIf v).media = s.media := rfl
@[simp] theorem State.setIf_redirect : (s.setIf v).redirect = s.redirect := rfl
@[simp] theorem State.setIf_tlb : (s.setIf v).tlb = s.tlb := rfl
@[simp] theorem State.setIf_mem : (s.setIf v).mem = s.mem := rfl
@[simp] theorem State.setIf_guestRunning : (s.setIf v).guestRunning = s.guestRunning := rfl
@[simp] theorem State.setIf_params : (s.setIf v).params = s.params := rfl
@[simp] theorem State.setIf_code : (s.setIf v).code = s.code := rfl
@[simp] theorem State.setIf_schedule : (s.setIf v).schedule = s.schedule := rfl
@[simp] theorem State.setIf_raised : (s.setIf v).raised = s.raised := rfl
@[simp] theorem State.setIf_answer : (s.setIf v).answer = s.answer := rfl
@[simp] theorem State.setIf_draws : (s.setIf v).draws = s.draws := rfl
end

section
variable (s : State) (v : Bool)
@[simp] theorem State.setVif_gpr : (s.setVif v).gpr = s.gpr := rfl
@[simp] theorem State.setVif_cr0 : (s.setVif v).cr0 = s.cr0 := rfl
@[simp] theorem State.setVif_cr2 : (s.setVif v).cr2 = s.cr2 := rfl
@[simp] theorem State.setVif_cr3 : (s.setVif v).cr3 = s.cr3 := rfl
@[simp] theorem State.setVif_cr4 : (s.setVif v).cr4 = s.cr4 := rfl
@[simp] theorem State.setVif_efer : (s.setVif v).efer = s.efer := rfl
@[simp] theorem State.setVif_cpl : (s.setVif v).cpl = s.cpl := rfl
@[simp] theorem State.setVif_csL : (s.setVif v).csL = s.csL := rfl
@[simp] theorem State.setVif_csD : (s.setVif v).csD = s.csD := rfl
@[simp] theorem State.setVif_rflags : (s.setVif v).rflags = { s.rflags with vif := v } := rfl
@[simp] theorem State.setVif_dr6 : (s.setVif v).dr6 = s.dr6 := rfl
@[simp] theorem State.setVif_dr7 : (s.setVif v).dr7 = s.dr7 := rfl
@[simp] theorem State.setVif_tsc : (s.setVif v).tsc = s.tsc := rfl
@[simp] theorem State.setVif_perf : (s.setVif v).perf = s.perf := rfl
@[simp] theorem State.setVif_xcr0 : (s.setVif v).xcr0 = s.xcr0 := rfl
@[simp] theorem State.setVif_vmCr : (s.setVif v).vmCr = s.vmCr := rfl
@[simp] theorem State.setVif_mcBanks : (s.setVif v).mcBanks = s.mcBanks := rfl
@[simp] theorem State.setVif_media : (s.setVif v).media = s.media := rfl
@[simp] theorem State.setVif_redirect : (s.setVif v).redirect = s.redirect := rfl
@[simp] theorem State.setVif_tlb : (s.setVif v).tlb = s.tlb := rfl
@[simp] theorem State.setVif_mem : (s.setVif v).mem = s.mem := rfl
@[simp] theorem State.setVif_guestRunning : (s.setVif v).guestRunning = s.guestRunning := rfl
@[simp] theorem State.setVif_params : (s.setVif v).params = s.params := rfl
@[simp] theorem State.setVif_code : (s.setVif v).code = s.code := rfl
@[simp] theorem State.setVif_schedule : (s.setVif v).schedule = s.schedule := rfl
@[simp] theorem State.setVif_raised : (s.setVif v).raised = s.raised := rfl
@[simp] theorem State.setVif_answer : (s.setVif v).answer = s.answer := rfl
@[simp] theorem State.setVif_draws : (s.setVif v).draws = s.draws := rfl
end

section
variable (s : State) (v : Word)
@[simp] theorem State.setDr6_gpr : (s.setDr6 v).gpr = s.gpr := rfl
@[simp] theorem State.setDr6_cr0 : (s.setDr6 v).cr0 = s.cr0 := rfl
@[simp] theorem State.setDr6_cr2 : (s.setDr6 v).cr2 = s.cr2 := rfl
@[simp] theorem State.setDr6_cr3 : (s.setDr6 v).cr3 = s.cr3 := rfl
@[simp] theorem State.setDr6_cr4 : (s.setDr6 v).cr4 = s.cr4 := rfl
@[simp] theorem State.setDr6_efer : (s.setDr6 v).efer = s.efer := rfl
@[simp] theorem State.setDr6_cpl : (s.setDr6 v).cpl = s.cpl := rfl
@[simp] theorem State.setDr6_csL : (s.setDr6 v).csL = s.csL := rfl
@[simp] theorem State.setDr6_csD : (s.setDr6 v).csD = s.csD := rfl
@[simp] theorem State.setDr6_rflags : (s.setDr6 v).rflags = s.rflags := rfl
@[simp] theorem State.setDr6_dr6 : (s.setDr6 v).dr6 = v := rfl
@[simp] theorem State.setDr6_dr7 : (s.setDr6 v).dr7 = s.dr7 := rfl
@[simp] theorem State.setDr6_tsc : (s.setDr6 v).tsc = s.tsc := rfl
@[simp] theorem State.setDr6_perf : (s.setDr6 v).perf = s.perf := rfl
@[simp] theorem State.setDr6_xcr0 : (s.setDr6 v).xcr0 = s.xcr0 := rfl
@[simp] theorem State.setDr6_vmCr : (s.setDr6 v).vmCr = s.vmCr := rfl
@[simp] theorem State.setDr6_mcBanks : (s.setDr6 v).mcBanks = s.mcBanks := rfl
@[simp] theorem State.setDr6_media : (s.setDr6 v).media = s.media := rfl
@[simp] theorem State.setDr6_redirect : (s.setDr6 v).redirect = s.redirect := rfl
@[simp] theorem State.setDr6_tlb : (s.setDr6 v).tlb = s.tlb := rfl
@[simp] theorem State.setDr6_mem : (s.setDr6 v).mem = s.mem := rfl
@[simp] theorem State.setDr6_guestRunning : (s.setDr6 v).guestRunning = s.guestRunning := rfl
@[simp] theorem State.setDr6_params : (s.setDr6 v).params = s.params := rfl
@[simp] theorem State.setDr6_code : (s.setDr6 v).code = s.code := rfl
@[simp] theorem State.setDr6_schedule : (s.setDr6 v).schedule = s.schedule := rfl
@[simp] theorem State.setDr6_raised : (s.setDr6 v).raised = s.raised := rfl
@[simp] theorem State.setDr6_answer : (s.setDr6 v).answer = s.answer := rfl
@[simp] theorem State.setDr6_draws : (s.setDr6 v).draws = s.draws := rfl
end

section
variable (s : State) (v : Word)
@[simp] theorem State.setDr7_gpr : (s.setDr7 v).gpr = s.gpr := rfl
@[simp] theorem State.setDr7_cr0 : (s.setDr7 v).cr0 = s.cr0 := rfl
@[simp] theorem State.setDr7_cr2 : (s.setDr7 v).cr2 = s.cr2 := rfl
@[simp] theorem State.setDr7_cr3 : (s.setDr7 v).cr3 = s.cr3 := rfl
@[simp] theorem State.setDr7_cr4 : (s.setDr7 v).cr4 = s.cr4 := rfl
@[simp] theorem State.setDr7_efer : (s.setDr7 v).efer = s.efer := rfl
@[simp] theorem State.setDr7_cpl : (s.setDr7 v).cpl = s.cpl := rfl
@[simp] theorem State.setDr7_csL : (s.setDr7 v).csL = s.csL := rfl
@[simp] theorem State.setDr7_csD : (s.setDr7 v).csD = s.csD := rfl
@[simp] theorem State.setDr7_rflags : (s.setDr7 v).rflags = s.rflags := rfl
@[simp] theorem State.setDr7_dr6 : (s.setDr7 v).dr6 = s.dr6 := rfl
@[simp] theorem State.setDr7_dr7 : (s.setDr7 v).dr7 = v := rfl
@[simp] theorem State.setDr7_tsc : (s.setDr7 v).tsc = s.tsc := rfl
@[simp] theorem State.setDr7_perf : (s.setDr7 v).perf = s.perf := rfl
@[simp] theorem State.setDr7_xcr0 : (s.setDr7 v).xcr0 = s.xcr0 := rfl
@[simp] theorem State.setDr7_vmCr : (s.setDr7 v).vmCr = s.vmCr := rfl
@[simp] theorem State.setDr7_mcBanks : (s.setDr7 v).mcBanks = s.mcBanks := rfl
@[simp] theorem State.setDr7_media : (s.setDr7 v).media = s.media := rfl
@[simp] theorem State.setDr7_redirect : (s.setDr7 v).redirect = s.redirect := rfl
@[simp] theorem State.setDr7_tlb : (s.setDr7 v).tlb = s.tlb := rfl
@[simp] theorem State.setDr7_mem : (s.setDr7 v).mem = s.mem := rfl
@[simp] theorem State.setDr7_guestRunning : (s.setDr7 v).guestRunning = s.guestRunning := rfl
@[simp] theorem State.setDr7_params : (s.setDr7 v).params = s.params := rfl
@[simp] theorem State.setDr7_code : (s.setDr7 v).code = s.code := rfl
@[simp] theorem State.setDr7_schedule : (s.setDr7 v).schedule = s.schedule := rfl
@[simp] theorem State.setDr7_raised : (s.setDr7 v).raised = s.raised := rfl
@[simp] theorem State.setDr7_answer : (s.setDr7 v).answer = s.answer := rfl
@[simp] theorem State.setDr7_draws : (s.setDr7 v).draws = s.draws := rfl
end

section
variable (s : State) (v : Word)
@[simp] theorem State.setTsc_gpr : (s.setTsc v).gpr = s.gpr := rfl
@[simp] theorem State.setTsc_cr0 : (s.setTsc v).cr0 = s.cr0 := rfl
@[simp] theorem State.setTsc_cr2 : (s.setTsc v).cr2 = s.cr2 := rfl
@[simp] theorem State.setTsc_cr3 : (s.setTsc v).cr3 = s.cr3 := rfl
@[simp] theorem State.setTsc_cr4 : (s.setTsc v).cr4 = s.cr4 := rfl
@[simp] theorem State.setTsc_efer : (s.setTsc v).efer = s.efer := rfl
@[simp] theorem State.setTsc_cpl : (s.setTsc v).cpl = s.cpl := rfl
@[simp] theorem State.setTsc_csL : (s.setTsc v).csL = s.csL := rfl
@[simp] theorem State.setTsc_csD : (s.setTsc v).csD = s.csD := rfl
@[simp] theorem State.setTsc_rflags : (s.setTsc v).rflags = s.rflags := rfl
@[simp] theorem State.setTsc_dr6 : (s.setTsc v).dr6 = s.dr6 := rfl
@[simp] theorem State.setTsc_dr7 : (s.setTsc v).dr7 = s.dr7 := rfl
@[simp] theorem State.setTsc_tsc : (s.setTsc v).tsc = v := rfl
@[simp] theorem State.setTsc_perf : (s.setTsc v).perf = s.perf := rfl
@[simp] theorem State.setTsc_xcr0 : (s.setTsc v).xcr0 = s.xcr0 := rfl
@[simp] theorem State.setTsc_vmCr : (s.setTsc v).vmCr = s.vmCr := rfl
@[simp] theorem State.setTsc_mcBanks : (s.setTsc v).mcBanks = s.mcBanks := rfl
@[simp] theorem State.setTsc_media : (s.setTsc v).media = s.media := rfl
@[simp] theorem State.setTsc_redirect : (s.setTsc v).redirect = s.redirect := rfl
@[simp] theorem State.setTsc_tlb : (s.setTsc v).tlb = s.tlb := rfl
@[simp] theorem State.setTsc_mem : (s.setTsc v).mem = s.mem := rfl
@[simp] theorem State.setTsc_guestRunning : (s.setTsc v).guestRunning = s.guestRunning := rfl
@[simp] theorem State.setTsc_params : (s.setTsc v).params = s.params := rfl
@[simp] theorem State.setTsc_code : (s.setTsc v).code = s.code := rfl
@[simp] theorem State.setTsc_schedule : (s.setTsc v).schedule = s.schedule := rfl
@[simp] theorem State.setTsc_raised : (s.setTsc v).raised = s.raised := rfl
@[simp] theorem State.setTsc_answer : (s.setTsc v).answer = s.answer := rfl
@[simp] theorem State.setTsc_draws : (s.setTsc v).draws = s.draws := rfl
end

section
variable (s : State) (v : List (Nat × Word))
@[simp] theorem State.setPerf_gpr : (s.setPerf v).gpr = s.gpr := rfl
@[simp] theorem State.setPerf_cr0 : (s.setPerf v).cr0 = s.cr0 := rfl
@[simp] theorem State.setPerf_cr2 : (s.setPerf v).cr2 = s.cr2 := rfl
@[simp] theorem State.setPerf_cr3 : (s.setPerf v).cr3 = s.cr3 := rfl
@[simp] theorem State.setPerf_cr4 : (s.setPerf v).cr4 = s.cr4 := rfl
@[simp] theorem State.setPerf_efer : (s.setPerf v).efer = s.efer := rfl
@[simp] theorem State.setPerf_cpl : (s.setPerf v).cpl = s.cpl := rfl
@[simp] theorem State.setPerf_csL : (s.setPerf v).csL = s.csL := rfl
@[simp] theorem State.setPerf_csD : (s.setPerf v).csD = s.csD := rfl
@[simp] theorem State.setPerf_rflags : (s.setPerf v).rflags = s.rflags := rfl
@[simp] theorem State.setPerf_dr6 : (s.setPerf v).dr6 = s.dr6 := rfl
@[simp] theorem State.setPerf_dr7 : (s.setPerf v).dr7 = s.dr7 := rfl
@[simp] theorem State.setPerf_tsc : (s.setPerf v).tsc = s.tsc := rfl
@[simp] theorem State.setPerf_perf : (s.setPerf v).perf = v := rfl
@[simp] theorem State.setPerf_xcr0 : (s.setPerf v).xcr0 = s.xcr0 := rfl
@[simp] theorem State.setPerf_vmCr : (s.setPerf v).vmCr = s.vmCr := rfl
@[simp] theorem State.setPerf_mcBanks : (s.setPerf v).mcBanks = s.mcBanks := rfl
@[simp] theorem State.setPerf_media : (s.setPerf v).media = s.media := rfl
@[simp] theorem State.setPerf_redirect : (s.setPerf v).redirect = s.redirect := rfl
@[simp] theorem State.setPerf_tlb : (s.setPerf v).tlb = s.tlb := rfl
@[simp] theorem State.setPerf_mem : (s.setPerf v).mem = s.mem := rfl
@[simp] theorem State.setPerf_guestRunning : (s.setPerf v).guestRunning = s.guestRunning := rfl
@[simp] theorem State.setPerf_params : (s.setPerf v).params = s.params := rfl
@[simp] theorem State.setPerf_code : (s.setPerf v).code = s.code := rfl
@[simp] theorem State.setPerf_schedule : (s.setPerf v).schedule = s.schedule := rfl
@[simp] theorem State.setPerf_raised : (s.setPerf v).raised = s.raised := rfl
@[simp] theorem State.setPerf_answer : (s.setPerf v).answer = s.answer := rfl
@[simp] theorem State.setPerf_draws : (s.setPerf v).draws = s.draws := rfl
end

section
variable (s : State) (v : Word)
@[simp] theorem State.setXcr0_gpr : (s.setXcr0 v).gpr = s.gpr := rfl
@[simp] theorem State.setXcr0_cr0 : (s.setXcr0 v).cr0 = s.cr0 := rfl
@[simp] theorem State.setXcr0_cr2 : (s.setXcr0 v).cr2 = s.cr2 := rfl
@[simp] theorem State.setXcr0_cr3 : (s.setXcr0 v).cr3 = s.cr3 := rfl
@[simp] theorem State.setXcr0_cr4 : (s.setXcr0 v).cr4 = s.cr4 := rfl
@[simp] theorem State.setXcr0_efer : (s.setXcr0 v).efer = s.efer := rfl
@[simp] theorem State.setXcr0_cpl : (s.setXcr0 v).cpl = s.cpl := rfl
@[simp] theorem State.setXcr0_csL : (s.setXcr0 v).csL = s.csL := rfl
@[simp] theorem State.setXcr0_csD : (s.setXcr0 v).csD = s.csD := rfl
@[simp] theorem State.setXcr0_rflags : (s.setXcr0 v).rflags = s.rflags := rfl
@[simp] theorem State.setXcr0_dr6 : (s.setXcr0 v).dr6 = s.dr6 := rfl
@[simp] theorem State.setXcr0_dr7 : (s.setXcr0 v).dr7 = s.dr7 := rfl
@[simp] theorem State.setXcr0_tsc : (s.setXcr0 v).tsc = s.tsc := rfl
@[simp] theorem State.setXcr0_perf : (s.setXcr0 v).perf = s.perf := rfl
@[simp] theorem State.setXcr0_xcr0 : (s.setXcr0 v).xcr0 = v := rfl
@[simp] theorem State.setXcr0_vmCr : (s.setXcr0 v).vmCr = s.vmCr := rfl
@[simp] theorem State.setXcr0_mcBanks : (s.setXcr0 v).mcBanks = s.mcBanks := rfl
@[simp] theorem State.setXcr0_media : (s.setXcr0 v).media = s.media := rfl
@[simp] theorem State.setXcr0_redirect : (s.setXcr0 v).redirect = s.redirect := rfl
@[simp] theorem State.setXcr0_tlb : (s.setXcr0 v).tlb = s.tlb := rfl
@[simp] theorem State.setXcr0_mem : (s.setXcr0 v).mem = s.mem := rfl
@[simp] theorem State.setXcr0_guestRunning : (s.setXcr0 v).guestRunning = s.guestRunning := rfl
@[simp] theorem State.setXcr0_params : (s.setXcr0 v).params = s.params := rfl
@[simp] theorem State.setXcr0_code : (s.setXcr0 v).code = s.code := rfl
@[simp] theorem State.setXcr0_schedule : (s.setXcr0 v).schedule = s.schedule := rfl
@[simp] theorem State.setXcr0_raised : (s.setXcr0 v).raised = s.raised := rfl
@[simp] theorem State.setXcr0_answer : (s.setXcr0 v).answer = s.answer := rfl
@[simp] theorem State.setXcr0_draws : (s.setXcr0 v).draws = s.draws := rfl
end

section
variable (s : State) (v : List (Nat × McBank))
@[simp] theorem State.setMcBanks_gpr : (s.setMcBanks v).gpr = s.gpr := rfl
@[simp] theorem State.setMcBanks_cr0 : (s.setMcBanks v).cr0 = s.cr0 := rfl
@[simp] theorem State.setMcBanks_cr2 : (s.setMcBanks v).cr2 = s.cr2 := rfl
@[simp] theorem State.setMcBanks_cr3 : (s.setMcBanks v).cr3 = s.cr3 := rfl
@[simp] theorem State.setMcBanks_cr4 : (s.setMcBanks v).cr4 = s.cr4 := rfl
@[simp] theorem State.setMcBanks_efer : (s.setMcBanks v).efer = s.efer := rfl
@[simp] theorem State.setMcBanks_cpl : (s.setMcBanks v).cpl = s.cpl := rfl
@[simp] theorem State.setMcBanks_csL : (s.setMcBanks v).csL = s.csL := rfl
@[simp] theorem State.setMcBanks_csD : (s.setMcBanks v).csD = s.csD := rfl
@[simp] theorem State.setMcBanks_rflags : (s.setMcBanks v).rflags = s.rflags := rfl
@[simp] theorem State.setMcBanks_dr6 : (s.setMcBanks v).dr6 = s.dr6 := rfl
@[simp] theorem State.setMcBanks_dr7 : (s.setMcBanks v).dr7 = s.dr7 := rfl
@[simp] theorem State.setMcBanks_tsc : (s.setMcBanks v).tsc = s.tsc := rfl
@[simp] theorem State.setMcBanks_perf : (s.setMcBanks v).perf = s.perf := rfl
@[simp] theorem State.setMcBanks_xcr0 : (s.setMcBanks v).xcr0 = s.xcr0 := rfl
@[simp] theorem State.setMcBanks_vmCr : (s.setMcBanks v).vmCr = s.vmCr := rfl
@[simp] theorem State.setMcBanks_mcBanks : (s.setMcBanks v).mcBanks = v := rfl
@[simp] theorem State.setMcBanks_media : (s.setMcBanks v).media = s.media := rfl
@[simp] theorem State.setMcBanks_redirect : (s.setMcBanks v).redirect = s.redirect := rfl
@[simp] theorem State.setMcBanks_tlb : (s.setMcBanks v).tlb = s.tlb := rfl
@[simp] theorem State.setMcBanks_mem : (s.setMcBanks v).mem = s.mem := rfl
@[simp] theorem State.setMcBanks_guestRunning : (s.setMcBanks v).guestRunning = s.guestRunning := rfl
@[simp] theorem State.setMcBanks_params : (s.setMcBanks v).params = s.params := rfl
@[simp] theorem State.setMcBanks_code : (s.setMcBanks v).code = s.code := rfl
@[simp] theorem State.setMcBanks_schedule : (s.setMcBanks v).schedule = s.schedule := rfl
@[simp] theorem State.setMcBanks_raised : (s.setMcBanks v).raised = s.raised := rfl
@[simp] theorem State.setMcBanks_answer : (s.setMcBanks v).answer = s.answer := rfl
@[simp] theorem State.setMcBanks_draws : (s.setMcBanks v).draws = s.draws := rfl
end

section
variable (s : State) (v : Media)
@[simp] theorem State.setMedia_gpr : (s.setMedia v).gpr = s.gpr := rfl
@[simp] theorem State.setMedia_cr0 : (s.setMedia v).cr0 = s.cr0 := rfl
@[simp] theorem State.setMedia_cr2 : (s.setMedia v).cr2 = s.cr2 := rfl
@[simp] theorem State.setMedia_cr3 : (s.setMedia v).cr3 = s.cr3 := rfl
@[simp] theorem State.setMedia_cr4 : (s.setMedia v).cr4 = s.cr4 := rfl
@[simp] theorem State.setMedia_efer : (s.setMedia v).efer = s.efer := rfl
@[simp] theorem State.setMedia_cpl : (s.setMedia v).cpl = s.cpl := rfl
@[simp] theorem State.setMedia_csL : (s.setMedia v).csL = s.csL := rfl
@[simp] theorem State.setMedia_csD : (s.setMedia v).csD = s.csD := rfl
@[simp] theorem State.setMedia_rflags : (s.setMedia v).rflags = s.rflags := rfl
@[simp] theorem State.setMedia_dr6 : (s.setMedia v).dr6 = s.dr6 := rfl
@[simp] theorem State.setMedia_dr7 : (s.setMedia v).dr7 = s.dr7 := rfl
@[simp] theorem State.setMedia_tsc : (s.setMedia v).tsc = s.tsc := rfl
@[simp] theorem State.setMedia_perf : (s.setMedia v).perf = s.perf := rfl
@[simp] theorem State.setMedia_xcr0 : (s.setMedia v).xcr0 = s.xcr0 := rfl
@[simp] theorem State.setMedia_vmCr : (s.setMedia v).vmCr = s.vmCr := rfl
@[simp] theorem State.setMedia_mcBanks : (s.setMedia v).mcBanks = s.mcBanks := rfl
@[simp] theorem State.setMedia_media : (s.setMedia v).media = v := rfl
@[simp] theorem State.setMedia_redirect : (s.setMedia v).redirect = s.redirect := rfl
@[simp] theorem State.setMedia_tlb : (s.setMedia v).tlb = s.tlb := rfl
@[simp] theorem State.setMedia_mem : (s.setMedia v).mem = s.mem := rfl
@[simp] theorem State.setMedia_guestRunning : (s.setMedia v).guestRunning = s.guestRunning := rfl
@[simp] theorem State.setMedia_params : (s.setMedia v).params = s.params := rfl
@[simp] theorem State.setMedia_code : (s.setMedia v).code = s.code := rfl
@[simp] theorem State.setMedia_schedule : (s.setMedia v).schedule = s.schedule := rfl
@[simp] theorem State.setMedia_raised : (s.setMedia v).raised = s.raised := rfl
@[simp] theorem State.setMedia_answer : (s.setMedia v).answer = s.answer := rfl
@[simp] theorem State.setMedia_draws : (s.setMedia v).draws = s.draws := rfl
end

section
variable (s : State) (v : List TlbEntry)
@[simp] theorem State.setTlb_gpr : (s.setTlb v).gpr = s.gpr := rfl
@[simp] theorem State.setTlb_cr0 : (s.setTlb v).cr0 = s.cr0 := rfl
@[simp] theorem State.setTlb_cr2 : (s.setTlb v).cr2 = s.cr2 := rfl
@[simp] theorem State.setTlb_cr3 : (s.setTlb v).cr3 = s.cr3 := rfl
@[simp] theorem State.setTlb_cr4 : (s.setTlb v).cr4 = s.cr4 := rfl
@[simp] theorem State.setTlb_efer : (s.setTlb v).efer = s.efer := rfl
@[simp] theorem State.setTlb_cpl : (s.setTlb v).cpl = s.cpl := rfl
@[simp] theorem State.setTlb_csL : (s.setTlb v).csL = s.csL := rfl
@[simp] theorem State.setTlb_csD : (s.setTlb v).csD = s.csD := rfl
@[simp] theorem State.setTlb_rflags : (s.setTlb v).rflags = s.rflags := rfl
@[simp] theorem State.setTlb_dr6 : (s.setTlb v).dr6 = s.dr6 := rfl
@[simp] theorem State.setTlb_dr7 : (s.setTlb v).dr7 = s.dr7 := rfl
@[simp] theorem State.setTlb_tsc : (s.setTlb v).tsc = s.tsc := rfl
@[simp] theorem State.setTlb_perf : (s.setTlb v).perf = s.perf := rfl
@[simp] theorem State.setTlb_xcr0 : (s.setTlb v).xcr0 = s.xcr0 := rfl
@[simp] theorem State.setTlb_vmCr : (s.setTlb v).vmCr = s.vmCr := rfl
@[simp] theorem State.setTlb_mcBanks : (s.setTlb v).mcBanks = s.mcBanks := rfl
@[simp] theorem State.setTlb_media : (s.setTlb v).media = s.media := rfl
@[simp] theorem State.setTlb_redirect : (s.setTlb v).redirect = s.redirect := rfl
@[simp] theorem State.setTlb_tlb : (s.setTlb v).tlb = v := rfl
@[simp] theorem State.setTlb_mem : (s.setTlb v).mem = s.mem := rfl
@[simp] theorem State.setTlb_guestRunning : (s.setTlb v).guestRunning = s.guestRunning := rfl
@[simp] theorem State.setTlb_params : (s.setTlb v).params = s.params := rfl
@[simp] theorem State.setTlb_code : (s.setTlb v).code = s.code := rfl
@[simp] theorem State.setTlb_schedule : (s.setTlb v).schedule = s.schedule := rfl
@[simp] theorem State.setTlb_raised : (s.setTlb v).raised = s.raised := rfl
@[simp] theorem State.setTlb_answer : (s.setTlb v).answer = s.answer := rfl
@[simp] theorem State.setTlb_draws : (s.setTlb v).draws = s.draws := rfl
end

section
variable (s : State) (v : List Host.Cell)
@[simp] theorem State.setMem_gpr : (s.setMem v).gpr = s.gpr := rfl
@[simp] theorem State.setMem_cr0 : (s.setMem v).cr0 = s.cr0 := rfl
@[simp] theorem State.setMem_cr2 : (s.setMem v).cr2 = s.cr2 := rfl
@[simp] theorem State.setMem_cr3 : (s.setMem v).cr3 = s.cr3 := rfl
@[simp] theorem State.setMem_cr4 : (s.setMem v).cr4 = s.cr4 := rfl
@[simp] theorem State.setMem_efer : (s.setMem v).efer = s.efer := rfl
@[simp] theorem State.setMem_cpl : (s.setMem v).cpl = s.cpl := rfl
@[simp] theorem State.setMem_csL : (s.setMem v).csL = s.csL := rfl
@[simp] theorem State.setMem_csD : (s.setMem v).csD = s.csD := rfl
@[simp] theorem State.setMem_rflags : (s.setMem v).rflags = s.rflags := rfl
@[simp] theorem State.setMem_dr6 : (s.setMem v).dr6 = s.dr6 := rfl
@[simp] theorem State.setMem_dr7 : (s.setMem v).dr7 = s.dr7 := rfl
@[simp] theorem State.setMem_tsc : (s.setMem v).tsc = s.tsc := rfl
@[simp] theorem State.setMem_perf : (s.setMem v).perf = s.perf := rfl
@[simp] theorem State.setMem_xcr0 : (s.setMem v).xcr0 = s.xcr0 := rfl
@[simp] theorem State.setMem_vmCr : (s.setMem v).vmCr = s.vmCr := rfl
@[simp] theorem State.setMem_mcBanks : (s.setMem v).mcBanks = s.mcBanks := rfl
@[simp] theorem State.setMem_media : (s.setMem v).media = s.media := rfl
@[simp] theorem State.setMem_redirect : (s.setMem v).redirect = s.redirect := rfl
@[simp] theorem State.setMem_tlb : (s.setMem v).tlb = s.tlb := rfl
@[simp] theorem State.setMem_mem : (s.setMem v).mem = v := rfl
@[simp] theorem State.setMem_guestRunning : (s.setMem v).guestRunning = s.guestRunning := rfl
@[simp] theorem State.setMem_params : (s.setMem v).params = s.params := rfl
@[simp] theorem State.setMem_code : (s.setMem v).code = s.code := rfl
@[simp] theorem State.setMem_schedule : (s.setMem v).schedule = s.schedule := rfl
@[simp] theorem State.setMem_raised : (s.setMem v).raised = s.raised := rfl
@[simp] theorem State.setMem_answer : (s.setMem v).answer = s.answer := rfl
@[simp] theorem State.setMem_draws : (s.setMem v).draws = s.draws := rfl
end

section
variable (s : State) (v : Bool)
@[simp] theorem State.setCsL_gpr : (s.setCsL v).gpr = s.gpr := rfl
@[simp] theorem State.setCsL_cr0 : (s.setCsL v).cr0 = s.cr0 := rfl
@[simp] theorem State.setCsL_cr2 : (s.setCsL v).cr2 = s.cr2 := rfl
@[simp] theorem State.setCsL_cr3 : (s.setCsL v).cr3 = s.cr3 := rfl
@[simp] theorem State.setCsL_cr4 : (s.setCsL v).cr4 = s.cr4 := rfl
@[simp] theorem State.setCsL_efer : (s.setCsL v).efer = s.efer := rfl
@[simp] theorem State.setCsL_cpl : (s.setCsL v).cpl = s.cpl := rfl
@[simp] theorem State.setCsL_csL : (s.setCsL v).csL = v := rfl
@[simp] theorem State.setCsL_csD : (s.setCsL v).csD = s.csD := rfl
@[simp] theorem State.setCsL_rflags : (s.setCsL v).rflags = s.rflags := rfl
@[simp] theorem State.setCsL_dr6 : (s.setCsL v).dr6 = s.dr6 := rfl
@[simp] theorem State.setCsL_dr7 : (s.setCsL v).dr7 = s.dr7 := rfl
@[simp] theorem State.setCsL_tsc : (s.setCsL v).tsc = s.tsc := rfl
@[simp] theorem State.setCsL_perf : (s.setCsL v).perf = s.perf := rfl
@[simp] theorem State.setCsL_xcr0 : (s.setCsL v).xcr0 = s.xcr0 := rfl
@[simp] theorem State.setCsL_vmCr : (s.setCsL v).vmCr = s.vmCr := rfl
@[simp] theorem State.setCsL_mcBanks : (s.setCsL v).mcBanks = s.mcBanks := rfl
@[simp] theorem State.setCsL_media : (s.setCsL v).media = s.media := rfl
@[simp] theorem State.setCsL_redirect : (s.setCsL v).redirect = s.redirect := rfl
@[simp] theorem State.setCsL_tlb : (s.setCsL v).tlb = s.tlb := rfl
@[simp] theorem State.setCsL_mem : (s.setCsL v).mem = s.mem := rfl
@[simp] theorem State.setCsL_guestRunning : (s.setCsL v).guestRunning = s.guestRunning := rfl
@[simp] theorem State.setCsL_params : (s.setCsL v).params = s.params := rfl
@[simp] theorem State.setCsL_code : (s.setCsL v).code = s.code := rfl
@[simp] theorem State.setCsL_schedule : (s.setCsL v).schedule = s.schedule := rfl
@[simp] theorem State.setCsL_raised : (s.setCsL v).raised = s.raised := rfl
@[simp] theorem State.setCsL_answer : (s.setCsL v).answer = s.answer := rfl
@[simp] theorem State.setCsL_draws : (s.setCsL v).draws = s.draws := rfl
end

section
variable (s : State) (v : Bool)
@[simp] theorem State.setCsD_gpr : (s.setCsD v).gpr = s.gpr := rfl
@[simp] theorem State.setCsD_cr0 : (s.setCsD v).cr0 = s.cr0 := rfl
@[simp] theorem State.setCsD_cr2 : (s.setCsD v).cr2 = s.cr2 := rfl
@[simp] theorem State.setCsD_cr3 : (s.setCsD v).cr3 = s.cr3 := rfl
@[simp] theorem State.setCsD_cr4 : (s.setCsD v).cr4 = s.cr4 := rfl
@[simp] theorem State.setCsD_efer : (s.setCsD v).efer = s.efer := rfl
@[simp] theorem State.setCsD_cpl : (s.setCsD v).cpl = s.cpl := rfl
@[simp] theorem State.setCsD_csL : (s.setCsD v).csL = s.csL := rfl
@[simp] theorem State.setCsD_csD : (s.setCsD v).csD = v := rfl
@[simp] theorem State.setCsD_rflags : (s.setCsD v).rflags = s.rflags := rfl
@[simp] theorem State.setCsD_dr6 : (s.setCsD v).dr6 = s.dr6 := rfl
@[simp] theorem State.setCsD_dr7 : (s.setCsD v).dr7 = s.dr7 := rfl
@[simp] theorem State.setCsD_tsc : (s.setCsD v).tsc = s.tsc := rfl
@[simp] theorem State.setCsD_perf : (s.setCsD v).perf = s.perf := rfl
@[simp] theorem State.setCsD_xcr0 : (s.setCsD v).xcr0 = s.xcr0 := rfl
@[simp] theorem State.setCsD_vmCr : (s.setCsD v).vmCr = s.vmCr := rfl
@[simp] theorem State.setCsD_mcBanks : (s.setCsD v).mcBanks = s.mcBanks := rfl
@[simp] theorem State.setCsD_media : (s.setCsD v).media = s.media := rfl
@[simp] theorem State.setCsD_redirect : (s.setCsD v).redirect = s.redirect := rfl
@[simp] theorem State.setCsD_tlb : (s.setCsD v).tlb = s.tlb := rfl
@[simp] theorem State.setCsD_mem : (s.setCsD v).mem = s.mem := rfl
@[simp] theorem State.setCsD_guestRunning : (s.setCsD v).guestRunning = s.guestRunning := rfl
@[simp] theorem State.setCsD_params : (s.setCsD v).params = s.params := rfl
@[simp] theorem State.setCsD_code : (s.setCsD v).code = s.code := rfl
@[simp] theorem State.setCsD_schedule : (s.setCsD v).schedule = s.schedule := rfl
@[simp] theorem State.setCsD_raised : (s.setCsD v).raised = s.raised := rfl
@[simp] theorem State.setCsD_answer : (s.setCsD v).answer = s.answer := rfl
@[simp] theorem State.setCsD_draws : (s.setCsD v).draws = s.draws := rfl
end

section
variable (s : State) (v : Bool)
@[simp] theorem State.setGuestRunning_gpr : (s.setGuestRunning v).gpr = s.gpr := rfl
@[simp] theorem State.setGuestRunning_cr0 : (s.setGuestRunning v).cr0 = s.cr0 := rfl
@[simp] theorem State.setGuestRunning_cr2 : (s.setGuestRunning v).cr2 = s.cr2 := rfl
@[simp] theorem State.setGuestRunning_cr3 : (s.setGuestRunning v).cr3 = s.cr3 := rfl
@[simp] theorem State.setGuestRunning_cr4 : (s.setGuestRunning v).cr4 = s.cr4 := rfl
@[simp] theorem State.setGuestRunning_efer : (s.setGuestRunning v).efer = s.efer := rfl
@[simp] theorem State.setGuestRunning_cpl : (s.setGuestRunning v).cpl = s.cpl := rfl
@[simp] theorem State.setGuestRunning_csL : (s.setGuestRunning v).csL = s.csL := rfl
@[simp] theorem State.setGuestRunning_csD : (s.setGuestRunning v).csD = s.csD := rfl
@[simp] theorem State.setGuestRunning_rflags : (s.setGuestRunning v).rflags = s.rflags := rfl
@[simp] theorem State.setGuestRunning_dr6 : (s.setGuestRunning v).dr6 = s.dr6 := rfl
@[simp] theorem State.setGuestRunning_dr7 : (s.setGuestRunning v).dr7 = s.dr7 := rfl
@[simp] theorem State.setGuestRunning_tsc : (s.setGuestRunning v).tsc = s.tsc := rfl
@[simp] theorem State.setGuestRunning_perf : (s.setGuestRunning v).perf = s.perf := rfl
@[simp] theorem State.setGuestRunning_xcr0 : (s.setGuestRunning v).xcr0 = s.xcr0 := rfl
@[simp] theorem State.setGuestRunning_vmCr : (s.setGuestRunning v).vmCr = s.vmCr := rfl
@[simp] theorem State.setGuestRunning_mcBanks : (s.setGuestRunning v).mcBanks = s.mcBanks := rfl
@[simp] theorem State.setGuestRunning_media : (s.setGuestRunning v).media = s.media := rfl
@[simp] theorem State.setGuestRunning_redirect : (s.setGuestRunning v).redirect = s.redirect := rfl
@[simp] theorem State.setGuestRunning_tlb : (s.setGuestRunning v).tlb = s.tlb := rfl
@[simp] theorem State.setGuestRunning_mem : (s.setGuestRunning v).mem = s.mem := rfl
@[simp] theorem State.setGuestRunning_guestRunning : (s.setGuestRunning v).guestRunning = v := rfl
@[simp] theorem State.setGuestRunning_params : (s.setGuestRunning v).params = s.params := rfl
@[simp] theorem State.setGuestRunning_code : (s.setGuestRunning v).code = s.code := rfl
@[simp] theorem State.setGuestRunning_schedule : (s.setGuestRunning v).schedule = s.schedule := rfl
@[simp] theorem State.setGuestRunning_raised : (s.setGuestRunning v).raised = s.raised := rfl
@[simp] theorem State.setGuestRunning_answer : (s.setGuestRunning v).answer = s.answer := rfl
@[simp] theorem State.setGuestRunning_draws : (s.setGuestRunning v).draws = s.draws := rfl
end

section
variable (s : State) (v : List Byte)
@[simp] theorem State.setCode_gpr : (s.setCode v).gpr = s.gpr := rfl
@[simp] theorem State.setCode_cr0 : (s.setCode v).cr0 = s.cr0 := rfl
@[simp] theorem State.setCode_cr2 : (s.setCode v).cr2 = s.cr2 := rfl
@[simp] theorem State.setCode_cr3 : (s.setCode v).cr3 = s.cr3 := rfl
@[simp] theorem State.setCode_cr4 : (s.setCode v).cr4 = s.cr4 := rfl
@[simp] theorem State.setCode_efer : (s.setCode v).efer = s.efer := rfl
@[simp] theorem State.setCode_cpl : (s.setCode v).cpl = s.cpl := rfl
@[simp] theorem State.setCode_csL : (s.setCode v).csL = s.csL := rfl
@[simp] theorem State.setCode_csD : (s.setCode v).csD = s.csD := rfl
@[simp] theorem State.setCode_rflags : (s.setCode v).rflags = s.rflags := rfl
@[simp] theorem State.setCode_dr6 : (s.setCode v).dr6 = s.dr6 := rfl
@[simp] theorem State.setCode_dr7 : (s.setCode v).dr7 = s.dr7 := rfl
@[simp] theorem State.setCode_tsc : (s.setCode v).tsc = s.tsc := rfl
@[simp] theorem State.setCode_perf : (s.setCode v).perf = s.perf := rfl
@[simp] theorem State.setCode_xcr0 : (s.setCode v).xcr0 = s.xcr0 := rfl
@[simp] theorem State.setCode_vmCr : (s.setCode v).vmCr = s.vmCr := rfl
@[simp] theorem State.setCode_mcBanks : (s.setCode v).mcBanks = s.mcBanks := rfl
@[simp] theorem State.setCode_media : (s.setCode v).media = s.media := rfl
@[simp] theorem State.setCode_redirect : (s.setCode v).redirect = s.redirect := rfl
@[simp] theorem State.setCode_tlb : (s.setCode v).tlb = s.tlb := rfl
@[simp] theorem State.setCode_mem : (s.setCode v).mem = s.mem := rfl
@[simp] theorem State.setCode_guestRunning : (s.setCode v).guestRunning = s.guestRunning := rfl
@[simp] theorem State.setCode_params : (s.setCode v).params = s.params := rfl
@[simp] theorem State.setCode_code : (s.setCode v).code = v := rfl
@[simp] theorem State.setCode_schedule : (s.setCode v).schedule = s.schedule := rfl
@[simp] theorem State.setCode_raised : (s.setCode v).raised = s.raised := rfl
@[simp] theorem State.setCode_answer : (s.setCode v).answer = s.answer := rfl
@[simp] theorem State.setCode_draws : (s.setCode v).draws = s.draws := rfl
end

section
variable (s : State) (v : List Turn)
@[simp] theorem State.setSchedule_gpr : (s.setSchedule v).gpr = s.gpr := rfl
@[simp] theorem State.setSchedule_cr0 : (s.setSchedule v).cr0 = s.cr0 := rfl
@[simp] theorem State.setSchedule_cr2 : (s.setSchedule v).cr2 = s.cr2 := rfl
@[simp] theorem State.setSchedule_cr3 : (s.setSchedule v).cr3 = s.cr3 := rfl
@[simp] theorem State.setSchedule_cr4 : (s.setSchedule v).cr4 = s.cr4 := rfl
@[simp] theorem State.setSchedule_efer : (s.setSchedule v).efer = s.efer := rfl
@[simp] theorem State.setSchedule_cpl : (s.setSchedule v).cpl = s.cpl := rfl
@[simp] theorem State.setSchedule_csL : (s.setSchedule v).csL = s.csL := rfl
@[simp] theorem State.setSchedule_csD : (s.setSchedule v).csD = s.csD := rfl
@[simp] theorem State.setSchedule_rflags : (s.setSchedule v).rflags = s.rflags := rfl
@[simp] theorem State.setSchedule_dr6 : (s.setSchedule v).dr6 = s.dr6 := rfl
@[simp] theorem State.setSchedule_dr7 : (s.setSchedule v).dr7 = s.dr7 := rfl
@[simp] theorem State.setSchedule_tsc : (s.setSchedule v).tsc = s.tsc := rfl
@[simp] theorem State.setSchedule_perf : (s.setSchedule v).perf = s.perf := rfl
@[simp] theorem State.setSchedule_xcr0 : (s.setSchedule v).xcr0 = s.xcr0 := rfl
@[simp] theorem State.setSchedule_vmCr : (s.setSchedule v).vmCr = s.vmCr := rfl
@[simp] theorem State.setSchedule_mcBanks : (s.setSchedule v).mcBanks = s.mcBanks := rfl
@[simp] theorem State.setSchedule_media : (s.setSchedule v).media = s.media := rfl
@[simp] theorem State.setSchedule_redirect : (s.setSchedule v).redirect = s.redirect := rfl
@[simp] theorem State.setSchedule_tlb : (s.setSchedule v).tlb = s.tlb := rfl
@[simp] theorem State.setSchedule_mem : (s.setSchedule v).mem = s.mem := rfl
@[simp] theorem State.setSchedule_guestRunning : (s.setSchedule v).guestRunning = s.guestRunning := rfl
@[simp] theorem State.setSchedule_params : (s.setSchedule v).params = s.params := rfl
@[simp] theorem State.setSchedule_code : (s.setSchedule v).code = s.code := rfl
@[simp] theorem State.setSchedule_schedule : (s.setSchedule v).schedule = v := rfl
@[simp] theorem State.setSchedule_raised : (s.setSchedule v).raised = s.raised := rfl
@[simp] theorem State.setSchedule_answer : (s.setSchedule v).answer = s.answer := rfl
@[simp] theorem State.setSchedule_draws : (s.setSchedule v).draws = s.draws := rfl
end

section
variable (s : State) (v : Option Fault)
@[simp] theorem State.setRaised_gpr : (s.setRaised v).gpr = s.gpr := rfl
@[simp] theorem State.setRaised_cr0 : (s.setRaised v).cr0 = s.cr0 := rfl
@[simp] theorem State.setRaised_cr2 : (s.setRaised v).cr2 = s.cr2 := rfl
@[simp] theorem State.setRaised_cr3 : (s.setRaised v).cr3 = s.cr3 := rfl
@[simp] theorem State.setRaised_cr4 : (s.setRaised v).cr4 = s.cr4 := rfl
@[simp] theorem State.setRaised_efer : (s.setRaised v).efer = s.efer := rfl
@[simp] theorem State.setRaised_cpl : (s.setRaised v).cpl = s.cpl := rfl
@[simp] theorem State.setRaised_csL : (s.setRaised v).csL = s.csL := rfl
@[simp] theorem State.setRaised_csD : (s.setRaised v).csD = s.csD := rfl
@[simp] theorem State.setRaised_rflags : (s.setRaised v).rflags = s.rflags := rfl
@[simp] theorem State.setRaised_dr6 : (s.setRaised v).dr6 = s.dr6 := rfl
@[simp] theorem State.setRaised_dr7 : (s.setRaised v).dr7 = s.dr7 := rfl
@[simp] theorem State.setRaised_tsc : (s.setRaised v).tsc = s.tsc := rfl
@[simp] theorem State.setRaised_perf : (s.setRaised v).perf = s.perf := rfl
@[simp] theorem State.setRaised_xcr0 : (s.setRaised v).xcr0 = s.xcr0 := rfl
@[simp] theorem State.setRaised_vmCr : (s.setRaised v).vmCr = s.vmCr := rfl
@[simp] theorem State.setRaised_mcBanks : (s.setRaised v).mcBanks = s.mcBanks := rfl
@[simp] theorem State.setRaised_media : (s.setRaised v).media = s.media := rfl
@[simp] theorem State.setRaised_redirect : (s.setRaised v).redirect = s.redirect := rfl
@[simp] theorem State.setRaised_tlb : (s.setRaised v).tlb = s.tlb := rfl
@[simp] theorem State.setRaised_mem : (s.setRaised v).mem = s.mem := rfl
@[simp] theorem State.setRaised_guestRunning : (s.setRaised v).guestRunning = s.guestRunning := rfl
@[simp] theorem State.setRaised_params : (s.setRaised v).params = s.params := rfl
@[simp] theorem State.setRaised_code : (s.setRaised v).code = s.code := rfl
@[simp] theorem State.setRaised_schedule : (s.setRaised v).schedule = s.schedule := rfl
@[simp] theorem State.setRaised_raised : (s.setRaised v).raised = v := rfl
@[simp] theorem State.setRaised_answer : (s.setRaised v).answer = s.answer := rfl
@[simp] theorem State.setRaised_draws : (s.setRaised v).draws = s.draws := rfl
end

section
variable (s : State) (v : Answer)
@[simp] theorem State.setAnswer_gpr : (s.setAnswer v).gpr = s.gpr := rfl
@[simp] theorem State.setAnswer_cr0 : (s.setAnswer v).cr0 = s.cr0 := rfl
@[simp] theorem State.setAnswer_cr2 : (s.setAnswer v).cr2 = s.cr2 := rfl
@[simp] theorem State.setAnswer_cr3 : (s.setAnswer v).cr3 = s.cr3 := rfl
@[simp] theorem State.setAnswer_cr4 : (s.setAnswer v).cr4 = s.cr4 := rfl
@[simp] theorem State.setAnswer_efer : (s.setAnswer v).efer = s.efer := rfl
@[simp] theorem State.setAnswer_cpl : (s.setAnswer v).cpl = s.cpl := rfl
@[simp] theorem State.setAnswer_csL : (s.setAnswer v).csL = s.csL := rfl
@[simp] theorem State.setAnswer_csD : (s.setAnswer v).csD = s.csD := rfl
@[simp] theorem State.setAnswer_rflags : (s.setAnswer v).rflags = s.rflags := rfl
@[simp] theorem State.setAnswer_dr6 : (s.setAnswer v).dr6 = s.dr6 := rfl
@[simp] theorem State.setAnswer_dr7 : (s.setAnswer v).dr7 = s.dr7 := rfl
@[simp] theorem State.setAnswer_tsc : (s.setAnswer v).tsc = s.tsc := rfl
@[simp] theorem State.setAnswer_perf : (s.setAnswer v).perf = s.perf := rfl
@[simp] theorem State.setAnswer_xcr0 : (s.setAnswer v).xcr0 = s.xcr0 := rfl
@[simp] theorem State.setAnswer_vmCr : (s.setAnswer v).vmCr = s.vmCr := rfl
@[simp] theorem State.setAnswer_mcBanks : (s.setAnswer v).mcBanks = s.mcBanks := rfl
@[simp] theorem State.setAnswer_media : (s.setAnswer v).media = s.media := rfl
@[simp] theorem State.setAnswer_redirect : (s.setAnswer v).redirect = s.redirect := rfl
@[simp] theorem State.setAnswer_tlb : (s.setAnswer v).tlb = s.tlb := rfl
@[simp] theorem State.setAnswer_mem : (s.setAnswer v).mem = s.mem := rfl
@[simp] theorem State.setAnswer_guestRunning : (s.setAnswer v).guestRunning = s.guestRunning := rfl
@[simp] theorem State.setAnswer_params : (s.setAnswer v).params = s.params := rfl
@[simp] theorem State.setAnswer_code : (s.setAnswer v).code = s.code := rfl
@[simp] theorem State.setAnswer_schedule : (s.setAnswer v).schedule = s.schedule := rfl
@[simp] theorem State.setAnswer_raised : (s.setAnswer v).raised = s.raised := rfl
@[simp] theorem State.setAnswer_answer : (s.setAnswer v).answer = v := rfl
@[simp] theorem State.setAnswer_draws : (s.setAnswer v).draws = s.draws := rfl
end

section
variable (s : State) (v : Nat)
@[simp] theorem State.setDraws_gpr : (s.setDraws v).gpr = s.gpr := rfl
@[simp] theorem State.setDraws_cr0 : (s.setDraws v).cr0 = s.cr0 := rfl
@[simp] theorem State.setDraws_cr2 : (s.setDraws v).cr2 = s.cr2 := rfl
@[simp] theorem State.setDraws_cr3 : (s.setDraws v).cr3 = s.cr3 := rfl
@[simp] theorem State.setDraws_cr4 : (s.setDraws v).cr4 = s.cr4 := rfl
@[simp] theorem State.setDraws_efer : (s.setDraws v).efer = s.efer := rfl
@[simp] theorem State.setDraws_cpl : (s.setDraws v).cpl = s.cpl := rfl
@[simp] theorem State.setDraws_csL : (s.setDraws v).csL = s.csL := rfl
@[simp] theorem State.setDraws_csD : (s.setDraws v).csD = s.csD := rfl
@[simp] theorem State.setDraws_rflags : (s.setDraws v).rflags = s.rflags := rfl
@[simp] theorem State.setDraws_dr6 : (s.setDraws v).dr6 = s.dr6 := rfl
@[simp] theorem State.setDraws_dr7 : (s.setDraws v).dr7 = s.dr7 := rfl
@[simp] theorem State.setDraws_tsc : (s.setDraws v).tsc = s.tsc := rfl
@[simp] theorem State.setDraws_perf : (s.setDraws v).perf = s.perf := rfl
@[simp] theorem State.setDraws_xcr0 : (s.setDraws v).xcr0 = s.xcr0 := rfl
@[simp] theorem State.setDraws_vmCr : (s.setDraws v).vmCr = s.vmCr := rfl
@[simp] theorem State.setDraws_mcBanks : (s.setDraws v).mcBanks = s.mcBanks := rfl
@[simp] theorem State.setDraws_media : (s.setDraws v).media = s.media := rfl
@[simp] theorem State.setDraws_redirect : (s.setDraws v).redirect = s.redirect := rfl
@[simp] theorem State.setDraws_tlb : (s.setDraws v).tlb = s.tlb := rfl
@[simp] theorem State.setDraws_mem : (s.setDraws v).mem = s.mem := rfl
@[simp] theorem State.setDraws_guestRunning : (s.setDraws v).guestRunning = s.guestRunning := rfl
@[simp] theorem State.setDraws_params : (s.setDraws v).params = s.params := rfl
@[simp] theorem State.setDraws_code : (s.setDraws v).code = s.code := rfl
@[simp] theorem State.setDraws_schedule : (s.setDraws v).schedule = s.schedule := rfl
@[simp] theorem State.setDraws_raised : (s.setDraws v).raised = s.raised := rfl
@[simp] theorem State.setDraws_answer : (s.setDraws v).answer = s.answer := rfl
@[simp] theorem State.setDraws_draws : (s.setDraws v).draws = v := rfl
end

section
variable (s : State) (r : BitVec 4) (v : Word)
@[simp] theorem State.setGpr_gpr : (s.setGpr r v).gpr = s.gpr.set r.toNat v (gprIndex r) := rfl
@[simp] theorem State.setGpr_cr0 : (s.setGpr r v).cr0 = s.cr0 := rfl
@[simp] theorem State.setGpr_cr2 : (s.setGpr r v).cr2 = s.cr2 := rfl
@[simp] theorem State.setGpr_cr3 : (s.setGpr r v).cr3 = s.cr3 := rfl
@[simp] theorem State.setGpr_cr4 : (s.setGpr r v).cr4 = s.cr4 := rfl
@[simp] theorem State.setGpr_efer : (s.setGpr r v).efer = s.efer := rfl
@[simp] theorem State.setGpr_cpl : (s.setGpr r v).cpl = s.cpl := rfl
@[simp] theorem State.setGpr_csL : (s.setGpr r v).csL = s.csL := rfl
@[simp] theorem State.setGpr_csD : (s.setGpr r v).csD = s.csD := rfl
@[simp] theorem State.setGpr_rflags : (s.setGpr r v).rflags = s.rflags := rfl
@[simp] theorem State.setGpr_dr6 : (s.setGpr r v).dr6 = s.dr6 := rfl
@[simp] theorem State.setGpr_dr7 : (s.setGpr r v).dr7 = s.dr7 := rfl
@[simp] theorem State.setGpr_tsc : (s.setGpr r v).tsc = s.tsc := rfl
@[simp] theorem State.setGpr_perf : (s.setGpr r v).perf = s.perf := rfl
@[simp] theorem State.setGpr_xcr0 : (s.setGpr r v).xcr0 = s.xcr0 := rfl
@[simp] theorem State.setGpr_vmCr : (s.setGpr r v).vmCr = s.vmCr := rfl
@[simp] theorem State.setGpr_mcBanks : (s.setGpr r v).mcBanks = s.mcBanks := rfl
@[simp] theorem State.setGpr_media : (s.setGpr r v).media = s.media := rfl
@[simp] theorem State.setGpr_redirect : (s.setGpr r v).redirect = s.redirect := rfl
@[simp] theorem State.setGpr_tlb : (s.setGpr r v).tlb = s.tlb := rfl
@[simp] theorem State.setGpr_mem : (s.setGpr r v).mem = s.mem := rfl
@[simp] theorem State.setGpr_guestRunning : (s.setGpr r v).guestRunning = s.guestRunning := rfl
@[simp] theorem State.setGpr_params : (s.setGpr r v).params = s.params := rfl
@[simp] theorem State.setGpr_code : (s.setGpr r v).code = s.code := rfl
@[simp] theorem State.setGpr_schedule : (s.setGpr r v).schedule = s.schedule := rfl
@[simp] theorem State.setGpr_raised : (s.setGpr r v).raised = s.raised := rfl
@[simp] theorem State.setGpr_answer : (s.setGpr r v).answer = s.answer := rfl
@[simp] theorem State.setGpr_draws : (s.setGpr r v).draws = s.draws := rfl
end

/-- A register reads what was written to it. -/
@[simp] theorem State.getGpr_setGpr_same (s : State) (r : BitVec 4) (v : Word) :
    (s.setGpr r v).getGpr r = v := by
  simp [State.getGpr]

/-- Writing one register leaves the others. -/
theorem State.getGpr_setGpr_other (s : State) {r q : BitVec 4} (v : Word) (h : q ≠ r) :
    (s.setGpr r v).getGpr q = s.getGpr q := by
  have h' : r.toNat ≠ q.toNat := fun e => h (BitVec.eq_of_toNat_eq e.symm)
  simp [State.getGpr, Vector.getElem_set_ne (h := h')]

@[simp] theorem State.getGpr_setCr0 (s : State) (v : Word) (q : BitVec 4) : (s.setCr0 v).getGpr q = s.getGpr q := rfl
@[simp] theorem State.getGpr_setCr2 (s : State) (v : Word) (q : BitVec 4) : (s.setCr2 v).getGpr q = s.getGpr q := rfl
@[simp] theorem State.getGpr_setCr3 (s : State) (v : Word) (q : BitVec 4) : (s.setCr3 v).getGpr q = s.getGpr q := rfl
@[simp] theorem State.getGpr_setCr4 (s : State) (v : Word) (q : BitVec 4) : (s.setCr4 v).getGpr q = s.getGpr q := rfl
@[simp] theorem State.getGpr_setEfer (s : State) (v : Word) (q : BitVec 4) : (s.setEfer v).getGpr q = s.getGpr q := rfl
@[simp] theorem State.getGpr_setIf (s : State) (v : Bool) (q : BitVec 4) : (s.setIf v).getGpr q = s.getGpr q := rfl
@[simp] theorem State.getGpr_setVif (s : State) (v : Bool) (q : BitVec 4) : (s.setVif v).getGpr q = s.getGpr q := rfl
@[simp] theorem State.getGpr_setDr6 (s : State) (v : Word) (q : BitVec 4) : (s.setDr6 v).getGpr q = s.getGpr q := rfl
@[simp] theorem State.getGpr_setDr7 (s : State) (v : Word) (q : BitVec 4) : (s.setDr7 v).getGpr q = s.getGpr q := rfl
@[simp] theorem State.getGpr_setTsc (s : State) (v : Word) (q : BitVec 4) : (s.setTsc v).getGpr q = s.getGpr q := rfl
@[simp] theorem State.getGpr_setPerf (s : State) (v : List (Nat × Word)) (q : BitVec 4) : (s.setPerf v).getGpr q = s.getGpr q := rfl
@[simp] theorem State.getGpr_setXcr0 (s : State) (v : Word) (q : BitVec 4) : (s.setXcr0 v).getGpr q = s.getGpr q := rfl
@[simp] theorem State.getGpr_setMcBanks (s : State) (v : List (Nat × McBank)) (q : BitVec 4) : (s.setMcBanks v).getGpr q = s.getGpr q := rfl
@[simp] theorem State.getGpr_setMedia (s : State) (v : Media) (q : BitVec 4) : (s.setMedia v).getGpr q = s.getGpr q := rfl
@[simp] theorem State.getGpr_setTlb (s : State) (v : List TlbEntry) (q : BitVec 4) : (s.setTlb v).getGpr q = s.getGpr q := rfl
@[simp] theorem State.getGpr_setMem (s : State) (v : List Host.Cell) (q : BitVec 4) : (s.setMem v).getGpr q = s.getGpr q := rfl
@[simp] theorem State.getGpr_setCsL (s : State) (v : Bool) (q : BitVec 4) : (s.setCsL v).getGpr q = s.getGpr q := rfl
@[simp] theorem State.getGpr_setCsD (s : State) (v : Bool) (q : BitVec 4) : (s.setCsD v).getGpr q = s.getGpr q := rfl
@[simp] theorem State.getGpr_setGuestRunning (s : State) (v : Bool) (q : BitVec 4) : (s.setGuestRunning v).getGpr q = s.getGpr q := rfl
@[simp] theorem State.getGpr_setCode (s : State) (v : List Byte) (q : BitVec 4) : (s.setCode v).getGpr q = s.getGpr q := rfl
@[simp] theorem State.getGpr_setSchedule (s : State) (v : List Turn) (q : BitVec 4) : (s.setSchedule v).getGpr q = s.getGpr q := rfl
@[simp] theorem State.getGpr_setRaised (s : State) (v : Option Fault) (q : BitVec 4) : (s.setRaised v).getGpr q = s.getGpr q := rfl
@[simp] theorem State.getGpr_setAnswer (s : State) (v : Answer) (q : BitVec 4) : (s.setAnswer v).getGpr q = s.getGpr q := rfl
@[simp] theorem State.getGpr_setDraws (s : State) (v : Nat) (q : BitVec 4) : (s.setDraws v).getGpr q = s.getGpr q := rfl

/-- Drawing free values advances the counter alone. -/
@[simp] theorem State.drawn_eq (s : State) (k : Nat) : s.drawn k = s.setDraws (s.draws + k) := rfl

/-- Taking an exception writes the latch alone. -/
@[simp] theorem State.take_eq (s : State) (f : Fault) : s.take f = s.setRaised (some f) := rfl

end Sys2Proof.Machine
end

