-- ==== Sys2Proof/Laws/Flags.lean ====
section
/-! SUPPORT. The bit-field helpers and the modes: what a replaced bit reads as, the halves of a word, and which fields
a mode depends on. -/

namespace Sys2Proof.Machine

/-- Replacing bit `k` changes bit `k` alone. -/
theorem getLsbD_withBit (v : Word) (k : Nat) (b : Bool) (j : Nat) (hk : k < 64) :
    (withBit v k b).getLsbD j = if j = k then b else v.getLsbD j := by
  unfold withBit
  by_cases hj : j < 64
  · by_cases e : j = k
    · subst e; cases b <;> simp [hj]
    · have h1 : ¬ (k ≤ j ∧ j - k = 0) := by omega
      cases b <;> simp [hj, e] <;> omega
  · have hv : v.getLsbD j = false := BitVec.getLsbD_of_ge _ _ (by omega)
    have e : j ≠ k := by omega
    cases b <;> simp [hj, e, hv]

/-- Replacing a low bit leaves the high half. -/
theorem high32_withBit (v : Word) (k : Nat) (b : Bool) (hk : k < 32) :
    high32 (withBit v k b) = high32 v := by
  apply BitVec.eq_of_getLsbD_eq
  intro i hi
  simp only [high32, BitVec.getLsbD_extractLsb', getLsbD_withBit v k b _ (by omega : k < 64)]
  have : 32 + i ≠ k := by omega
  simp [this]

@[simp] theorem high32_zext64 (v : BitVec 32) : high32 (zext64 v) = 0#32 := by
  apply BitVec.eq_of_getLsbD_eq
  intro i hi
  simp [high32, zext64]

@[simp] theorem low32_zext64 (v : BitVec 32) : low32 (zext64 v) = v := by
  apply BitVec.eq_of_getLsbD_eq
  intro i hi
  simp only [low32, zext64, BitVec.getLsbD_extractLsb', BitVec.getLsbD_setWidth, hi, decide_true, Bool.true_and,
    Nat.zero_add, Bool.and_eq_right_iff_imp, decide_eq_true_eq]
  intro _; omega

/-- 64-bit mode depends on EFER and the L bit alone. -/
theorem State.mode64_congr {s t : State} (he : t.efer = s.efer) (hl : t.csL = s.csL) :
    t.mode64 = s.mode64 := by
  simp [State.mode64, State.lma, he, hl]

/-- What the mode makes of code depends on CR0, EFER and the L and D bits alone. -/
theorem State.codeSize_congr {s t : State} (h0 : t.cr0 = s.cr0) (he : t.efer = s.efer) (hl : t.csL = s.csL)
    (hd : t.csD = s.csD) : t.codeSize = s.codeSize := by
  simp [State.codeSize, State.mode64, State.lma, State.realMode, State.pe, h0, he, hl, hd]

/-- Code is 64-bit code exactly in 64-bit mode, where REX bytes are (30_encoding.md R107). -/
theorem State.codeSize_eq_c64 {s : State} : s.codeSize = .c64 ↔ s.mode64 = true := by
  unfold State.codeSize
  split
  · simpa
  · rename_i h
    simp only [h, Bool.false_eq_true, iff_false]
    split
    · decide
    · split <;> decide

/-- The gates' privilege level depends on CR0 and CPL alone. -/
theorem State.gateCpl_congr {s t : State} (h0 : t.cr0 = s.cr0) (hc : t.cpl = s.cpl) :
    t.gateCpl = s.gateCpl := by
  simp [State.gateCpl, State.realMode, State.pe, h0, hc]

/-- At CPL 0 every gate is evaluated with privilege level 0. -/
theorem State.gateCpl_eq_zero {s : State} (h : s.cpl = 0) : s.gateCpl = 0 := by
  simp [State.gateCpl, h]

/-- In protected mode a gate is evaluated with CPL. -/
theorem State.gateCpl_protected {s : State} (h : s.pe = true) : s.gateCpl = s.cpl := by
  simp [State.gateCpl, State.realMode, h]

end Sys2Proof.Machine
end

