-- ==== Sys2Proof/Laws/Ops.lean ====
section
/-! SUPPORT. For each shared operation, once, everything it can do when it answers a next state: the sequencing and
the gates, the register operations, the events, fetching, and the step. -/

namespace Sys2Proof.Machine

/-! Translation. -/

/-- The paging view sees nothing of CR0. -/
@[simp] theorem State.setCr0_pagingView (s : State) (v : Word) : (s.setCr0 v).pagingView = s.pagingView := rfl

/-- Translation depends on PG and the paging view alone. -/
theorem State.translate_congr {s t : State} (hg : t.pg = s.pg) (hv : t.pagingView = s.pagingView) (linear : Word) :
    t.translate linear = s.translate linear := by
  simp [State.translate, hg, hv]

/-! Sequencing and gates. -/

@[simp] theorem andThen_next {α β : Type} (a : α) (k : α → Result β) : andThen (.next a) k = k a := rfl
@[simp] theorem andThen_fault {α β : Type} (f : Fault) (k : α → Result β) :
    andThen (.fault f) k = .fault f := rfl
@[simp] theorem andThen_refused {α β : Type} (r : Refusal) (k : α → Result β) :
    andThen (.refused r) k = .refused r := rfl

/-- Both parts of a sequence answered. -/
theorem andThen_eq_next {α β : Type} {o : Result α} {k : α → Result β} {b : β}
    (h : andThen o k = .next b) : ∃ a, o = .next a ∧ k a = .next b := by
  cases o with
  | next a => exact ⟨a, rfl, h⟩
  | fault f => cases h
  | refused r => cases h

theorem requireCpl0_eq_next {α : Type} {s : State} {o : Result α} {a : α}
    (h : requireCpl0 s o = .next a) : s.cpl = 0 ∧ o = .next a := by
  unfold requireCpl0 raise at h
  split at h
  · exact ⟨‹_›, h⟩
  · cases h

theorem outsideVirtual8086_eq_next {α : Type} {s : State} {o : Result α} {a : α}
    (h : outsideVirtual8086 s o = .next a) : s.rflags.vm = false ∧ o = .next a := by
  unfold outsideVirtual8086 at h
  split at h
  · cases h
  · rename_i hn; exact ⟨by simpa using hn, h⟩

/-- Outside virtual-8086 mode the gate is its body. -/
theorem outsideVirtual8086_of_not_vm {α : Type} {s : State} (o : Result α) (h : s.rflags.vm = false) :
    outsideVirtual8086 s o = o := by
  simp [outsideVirtual8086, h]

/-- In virtual-8086 mode every gate is refused. -/
theorem outsideVirtual8086_of_vm {α : Type} {s : State} (o : Result α) (h : s.rflags.vm = true) :
    outsideVirtual8086 s o = .refused .virtual8086ModeNotModelled := by
  simp [outsideVirtual8086, h]

theorem tscGate_eq_next {s t : State} {o : Result State} (h : tscGate s o = .next t) :
    (s.tsd = false ∨ s.gateCpl = 0) ∧ o = .next t := by
  replace h := (outsideVirtual8086_eq_next h).2
  unfold raise at h
  split at h
  · cases h
  · rename_i hn
    refine ⟨?_, h⟩
    by_cases ht : s.tsd = true
    · exact .inr (by simpa [ht] using hn)
    · exact .inl (by simpa using ht)

theorem requireOsxsave_eq_next {s t : State} {o : Result State} (h : requireOsxsave s o = .next t) :
    s.osxsave = true ∧ o = .next t := by
  replace h := (outsideVirtual8086_eq_next h).2
  unfold raise at h
  split at h
  · exact ⟨‹_›, h⟩
  · cases h

theorem svmGate_eq_next {s t : State} {o : Result State} (h : svmGate s o = .next t) :
    s.svme = true ∧ o = .next t := by
  replace h := (outsideVirtual8086_eq_next h).2
  unfold raise at h
  split at h
  · exact ⟨‹_›, h⟩
  · cases h

theorem debugAlias_eq_next {α : Type} {s : State} {o : Result α} {a : α}
    (h : debugAlias s o = .next a) : s.de = false ∧ o = .next a := by
  unfold debugAlias raise at h
  split at h
  · cases h
  · rename_i hn; exact ⟨by simpa using hn, h⟩

/-! Register operations. -/

/-- A control register read answers CR0, CR2, CR3 or CR4, at CPL 0. -/
theorem readCr_eq_next {n : Nat} {s : State} {t : Word} (h : readCr n s = .next t) :
    s.cpl = 0 ∧ ((n = 0 ∧ t = s.cr0) ∨ (n = 2 ∧ t = s.cr2) ∨ (n = 3 ∧ t = s.cr3) ∨ (n = 4 ∧ t = s.cr4)) := by
  unfold readCr at h
  split at h
  all_goals first
    | cases h
    | (obtain ⟨hc, e⟩ := requireCpl0_eq_next h; cases e; exact ⟨hc, by simp⟩)

/-- A CR0 write that answers: every check passed (40_cr_access.md R111, R112). -/
theorem writeCr0_eq_next {v : Word} {s t : State} (h : writeCr0 v s = .next t) :
    s.cpl = 0 ∧ high32 v = 0#32 ∧ (v.getLsbD 31 = true → v.getLsbD 0 = true) ∧
      (v.getLsbD 31 = true → s.pg = false → s.lme = true → s.pae = true) ∧
      (v.getLsbD 31 = false → s.pg = true → s.mode64 = false) ∧ t = s.afterCr0 v := by
  obtain ⟨hc, h⟩ := requireCpl0_eq_next h
  unfold raise at h
  split at h; · cases h
  split at h; · cases h
  split at h; · cases h
  split at h; · cases h
  rename_i h1 h2 h3 h4
  cases h
  refine ⟨hc, by simpa using h1, ?_, ?_, ?_, rfl⟩
  · intro a; simpa [a] using h2
  · intro a b c; simpa [a, b, c] using h3
  · intro a b; rw [a, b] at h4; simpa using h4

/-- A CR3 write that answers (40_cr_access.md R116). -/
theorem writeCr3_eq_next {v : Word} {s t : State} (h : writeCr3 v s = .next t) :
    s.cpl = 0 ∧ s.lma = false ∧ high32 v = 0#32 ∧ v.extractLsb' 0 3 = 0#3 ∧
      (s.pae = false → v.extractLsb' 5 7 = 0#7) ∧ t = (s.setCr3 v).setTlb s.tlbAfterCr3 := by
  obtain ⟨hc, h⟩ := requireCpl0_eq_next h
  split at h; · cases h
  split at h; · cases h
  split at h; · cases h
  split at h; · cases h
  rename_i h1 h2 h3 h4
  cases h
  exact ⟨hc, by simpa using h1, by simpa using h2, by simpa using h3,
    fun a => by simpa [a] using h4, rfl⟩

/-- A CR4 write that answers (40_cr_access.md R119). -/
theorem writeCr4_eq_next {v : Word} {s t : State} (h : writeCr4 v s = .next t) :
    s.cpl = 0 ∧ v &&& ~~~cr4Named = 0#64 ∧ (v.getLsbD 18 = true → s.params.hasXsave = true) ∧
      (s.lma = true → v.getLsbD 5 = true) ∧ t = (s.setCr4 v).setCr3 (cr3Under v s.cr3) := by
  obtain ⟨hc, h⟩ := requireCpl0_eq_next h
  unfold raise at h
  split at h; · cases h
  split at h; · cases h
  split at h; · cases h
  rename_i h1 h2 h3
  cases h
  exact ⟨hc, by simpa using h1, fun a => by simpa [a] using h2, fun a => by simpa [a] using h3, rfl⟩

/-- What a CR4 write leaves in CR3: bits 11:5 go with PAE, every other bit stays. -/
theorem getLsbD_cr3Under (v cr3 : Word) (k : Nat) :
    (cr3Under v cr3).getLsbD k =
      if v.getLsbD 5 = false ∧ 5 ≤ k ∧ k ≤ 11 then false else cr3.getLsbD k := by
  unfold cr3Under
  by_cases hv : v.getLsbD 5 = true
  · simp [hv]
  · rw [if_neg hv]
    have hv' : v.getLsbD 5 = false := by simpa using hv
    by_cases hk : k < 64
    · simp only [BitVec.getLsbD_and, hv', true_and]
      have hm : ∀ k < 64, (~~~0xFE0#64 : Word).getLsbD k = !decide (5 ≤ k ∧ k ≤ 11) := by decide
      rw [hm k hk]
      by_cases h : 5 ≤ k ∧ k ≤ 11 <;> simp [h]
    · have h1 : cr3.getLsbD k = false := BitVec.getLsbD_of_ge _ _ (by omega)
      simp [h1]

/-- With PAE clear the unnamed bits of CR3 are 0 after a CR4 write (10_state.md R64). -/
theorem cr3Under_unnamed {v : Word} (cr3 : Word) (h : v.getLsbD 5 = false) :
    (cr3Under v cr3).extractLsb' 5 7 = 0#7 := by
  apply BitVec.eq_of_getLsbD_eq
  intro i hi
  rw [BitVec.getLsbD_extractLsb', getLsbD_cr3Under, if_pos ⟨h, by omega, by omega⟩]
  simp

/-- A control register write that answers is one of the four. -/
theorem writeCr_eq_next {n : Nat} {v : Word} {s t : State} (h : writeCr n v s = .next t) :
    (n = 0 ∧ writeCr0 v s = .next t) ∨ (n = 2 ∧ s.cpl = 0 ∧ t = s.setCr2 v) ∨
      (n = 3 ∧ writeCr3 v s = .next t) ∨ (n = 4 ∧ writeCr4 v s = .next t) := by
  unfold writeCr raise at h
  split at h
  all_goals first
    | cases h
    | exact .inl ⟨rfl, h⟩
    | (obtain ⟨hc, e⟩ := requireCpl0_eq_next h; cases e; exact .inr (.inl ⟨rfl, hc, rfl⟩))
    | exact .inr (.inr (.inl ⟨rfl, h⟩))
    | exact .inr (.inr (.inr ⟨rfl, h⟩))

theorem readEfer_eq_next {s : State} {t : Word} (h : readEfer s = .next t) : s.cpl = 0 ∧ t = s.efer := by
  obtain ⟨hc, e⟩ := requireCpl0_eq_next h
  cases e
  exact ⟨hc, rfl⟩

/-- An EFER write that answers: every check passed (41_efer_access.md R131). -/
theorem writeEfer_eq_next {v : Word} {s t : State} (h : writeEfer v s = .next t) :
    s.cpl = 0 ∧ v &&& ~~~eferNamed = 0#64 ∧ v.getLsbD 10 = s.lma ∧
      (s.pg = true → v.getLsbD 8 = s.lme) ∧ s.eferFeatureAbsent v = false ∧
      (v.getLsbD 12 = false → s.svme = true → s.guestRunning = false) ∧ t = s.setEfer v := by
  obtain ⟨hc, h⟩ := requireCpl0_eq_next h
  unfold raise at h
  split at h; · cases h
  split at h; · cases h
  split at h; · cases h
  split at h; · cases h
  split at h; · cases h
  rename_i h1 h2 h3 h4 h5
  cases h
  exact ⟨hc, by simpa using h1, by simpa using h2, fun a => by simpa [a] using h3, by simpa using h4,
    fun a b => by rw [a, b] at h5; simpa using h5, rfl⟩

/-- A debug register read answers DR6 or DR7 (42_cr4_gated.md R146). -/
theorem readDr_eq_next {n : Nat} {s : State} {t : Word} (h : readDr n s = .next t) :
    ((n = 4 ∧ s.de = false ∨ n = 6) ∧ t = s.dr6) ∨ ((n = 5 ∧ s.de = false ∨ n = 7) ∧ t = s.dr7) := by
  replace h := (outsideVirtual8086_eq_next h).2
  split at h
  · obtain ⟨hd, e⟩ := debugAlias_eq_next h; cases e; simp [hd]
  · obtain ⟨hd, e⟩ := debugAlias_eq_next h; cases e; simp [hd]
  · cases h; simp
  · cases h; simp
  · cases h

/-- A debug register write answers with DR6 or DR7 written (42_cr4_gated.md R147). -/
theorem writeDr_eq_next {n : Nat} {v : Word} {s t : State} (h : writeDr n v s = .next t) :
    ((n = 4 ∧ s.de = false ∨ n = 6) ∧ t = s.setDr6 v) ∨ ((n = 5 ∧ s.de = false ∨ n = 7) ∧ t = s.setDr7 v) := by
  replace h := (outsideVirtual8086_eq_next h).2
  split at h
  · obtain ⟨hd, e⟩ := debugAlias_eq_next h; cases e; simp [hd]
  · obtain ⟨hd, e⟩ := debugAlias_eq_next h; cases e; simp [hd]
  · cases h; simp
  · cases h; simp
  · cases h

/-! Events. -/

theorem takePageFault_eq_next {linear : Word} {s t : State} (h : takePageFault linear s = .next t) :
    s.pg = true ∧ t = (s.setCr2 (s.linearOf linear)).take (.pageFault (s.linearOf linear)) := by
  unfold takePageFault at h
  split at h
  · cases h; exact ⟨‹_›, rfl⟩
  · cases h

theorem takeTlbFill_eq_next {linear physical : Word} {g : Bool} {s t : State}
    (h : takeTlbFill linear physical g s = .next t) :
    (s.pg = true ∧ t = s.setTlb (s.tlb.insert ⟨linear, physical, g && s.pge⟩)) ∨ (s.pg = false ∧ t = s) := by
  unfold takeTlbFill at h
  split at h
  · cases h; exact .inl ⟨‹_›, rfl⟩
  · rename_i hn; cases h; exact .inr ⟨by simpa using hn, rfl⟩

/-- Recording an error writes the banks alone. -/
theorem State.recordError_eq (s : State) (bank : Nat) (error : Content) :
    s.recordError bank error = s ∨
      ∃ b : McBank, s.recordError bank error = s.setMcBanks (storePut bankDefault s.mcBanks bank b) := by
  unfold State.recordError
  split
  · exact .inr ⟨_, rfl⟩
  · exact .inl rfl

theorem takeMachineCheck_eq_next {bank : Nat} {error : Content} {u : Bool} {s t : State}
    (h : takeMachineCheck bank error u s = .next t) :
    (u = false ∧ t = s.recordError bank error) ∨
      (u = true ∧ s.mce = true ∧ t = (s.recordError bank error).take .machineCheck) := by
  unfold takeMachineCheck at h
  split at h
  · rename_i hu; cases h; exact .inl ⟨by simpa using hu, rfl⟩
  · rename_i hu
    split at h
    · cases h; exact .inr ⟨by simpa using hu, ‹_›, rfl⟩
    · cases h

theorem takeMediaInsn_eq_next {w : MediaWidth} {s t : State} (h : takeMediaInsn w s = .next t) :
    s.osfxsr = true ∧ t = ((s.setMedia s.freeSse).drawn 1).setAnswer .permitted := by
  replace h := (outsideVirtual8086_eq_next h).2
  unfold raise State.permit at h
  split at h
  · cases h
  · rename_i hn; cases h; exact ⟨by simpa using hn, rfl⟩

/-- No media floating-point error answers a next state. -/
theorem takeMediaFpError_ne_next {w : MediaWidth} {s t : State} : takeMediaFpError w s ≠ .next t := by
  intro h
  replace h := (outsideVirtual8086_eq_next h).2
  revert h
  unfold raise
  split
  · simp
  · split
    · simp
    · split <;> simp

/-! Fetching and stepping. -/

/-- A fetch that answers decoded the program's head. -/
theorem fetch_eq_next {s : State} {q : Instr × State} (h : fetch s = .next q) :
    ∃ rest, decode s.codeSize s.code = .ok (q.1, rest) ∧ s.code ≠ [] ∧ q.2 = s.setCode rest := by
  unfold fetch at h
  split at h
  · cases h
  · rename_i b bs hcode
    split at h
    · rename_i p hd
      cases h
      exact ⟨p.2, by rw [hcode]; exact hd, by simp [hcode], rfl⟩
    · rename_i e hd
      unfold decodeErrorOutcome lockOutcome raise at h
      split at h <;> try cases h
      split at h <;> try (split at h) <;> cases h
      all_goals cases h

/-- A fetch of a program whose head decodes. -/
theorem fetch_of_decode {s : State} {i : Instr} {rest : List Byte} (hne : s.code ≠ [])
    (h : decode s.codeSize s.code = .ok (i, rest)) : fetch s = .next (i, s.setCode rest) := by
  unfold fetch
  split
  · exact absurd ‹_› hne
  · rename_i b bs hcode
    rw [hcode] at h
    rw [h]

/-- The processor's turn that answers decoded an instruction and ran it. -/
theorem runInstruction_eq_next {s t : State} (h : runInstruction s = .next t) :
    ∃ i rest, decode s.codeSize s.code = .ok (i, rest) ∧ exec i (s.setCode rest) = .next t := by
  obtain ⟨q, hf, he⟩ := andThen_eq_next h
  obtain ⟨rest, hd, -, e⟩ := fetch_eq_next hf
  exact ⟨q.1, rest, hd, e ▸ he⟩

/-- A step that answers took the processor's turn or a listed one, with no exception taken before. -/
theorem step_eq_next {s t : State} (h : step s = .next t) :
    s.raised = none ∧ ((s.schedule = [] ∧ runInstruction s = .next t) ∨
      ∃ x xs, s.schedule = x :: xs ∧ takeTurn x (s.setSchedule xs) = .next t) := by
  unfold step at h
  split at h
  · cases h
  · split at h
    · exact ⟨‹_›, .inl ⟨‹_›, h⟩⟩
    · exact ⟨‹_›, .inr ⟨_, _, ‹_›, h⟩⟩

end Sys2Proof.Machine
end

