-- ==== Sys2Proof/Laws/Exec.lean ====
section
/-! SUPPORT. For each instruction's meaning, once, what it is when it answers a next state: the state it leaves, by the
named updates, and the checks that passed. -/

namespace Sys2Proof.Machine

theorem giveValue_eq_next {s t : State} {v : Word} (h : s.giveValue v = .next t) : t = s.setAnswer (.value v) := by
  cases h; rfl

theorem done_eq_next {s t : State} (h : s.done = .next t) : t = s.setAnswer .nothing := by cases h; rfl

theorem permit_eq_next {s t : State} (h : s.permit = .next t) : t = s.setAnswer .permitted := by cases h; rfl

theorem execMovRCr_eq_next {m : BitVec 2} {n r : BitVec 4} {s t : State} (h : execMovRCr m n r s = .next t) :
    s.cpl = 0 ∧ ∃ v, t = (s.dstReg r v).setAnswer (.value v) ∧
      ((n.toNat = 0 ∧ v = s.cr0) ∨ (n.toNat = 2 ∧ v = s.cr2) ∨ (n.toNat = 3 ∧ v = s.cr3) ∨
        (n.toNat = 4 ∧ v = s.cr4)) := by
  obtain ⟨v, hv, h⟩ := andThen_eq_next h
  obtain ⟨hc, hn⟩ := readCr_eq_next hv
  exact ⟨hc, v, giveValue_eq_next h, hn⟩

theorem execMovCrR_eq_next {m : BitVec 2} {n r : BitVec 4} {s t : State} (h : execMovCrR m n r s = .next t) :
    ∃ u, writeCr n.toNat (s.srcReg r) s = .next u ∧ t = u.setAnswer .nothing := by
  obtain ⟨u, hu, h⟩ := andThen_eq_next h
  exact ⟨u, hu, done_eq_next h⟩

theorem execRdmsr_eq_next {s t : State} (h : execRdmsr s = .next t) :
    s.cpl = 0 ∧ t = (s.setEdxEax s.efer).setAnswer (.value s.efer) := by
  unfold execRdmsr at h
  split at h
  · obtain ⟨v, hv, h⟩ := andThen_eq_next h
    obtain ⟨hc, rfl⟩ := readEfer_eq_next hv
    exact ⟨hc, giveValue_eq_next h⟩
  · cases h

theorem execWrmsr_eq_next {s t : State} (h : execWrmsr s = .next t) :
    writeEfer s.edxEax s = .next (s.setEfer s.edxEax) ∧ t = (s.setEfer s.edxEax).setAnswer .nothing := by
  unfold execWrmsr at h
  split at h
  · obtain ⟨u, hu, h⟩ := andThen_eq_next h
    obtain ⟨-, -, -, -, -, -, rfl⟩ := writeEfer_eq_next hu
    exact ⟨hu, done_eq_next h⟩
  · cases h

theorem execCli_eq_next {s t : State} (h : execCli s = .next t) :
    t = (s.setIf false).setAnswer .nothing ∨ t = (s.setVif false).setAnswer .nothing := by
  obtain ⟨-, h⟩ := outsideVirtual8086_eq_next h
  split at h
  · exact .inl (done_eq_next h)
  · split at h
    · exact .inr (done_eq_next h)
    · cases h

theorem execSti_eq_next {s t : State} (h : execSti s = .next t) :
    t = (s.setIf true).setAnswer .nothing ∨ t = (s.setVif true).setAnswer .nothing := by
  obtain ⟨-, h⟩ := outsideVirtual8086_eq_next h
  split at h
  · exact .inl (done_eq_next h)
  · split at h
    · split at h
      · cases h
      · exact .inr (done_eq_next h)
    · cases h

theorem execInt_eq_next {i : Byte} {s t : State} (h : execInt i s = .next t) : t = s.setAnswer .permitted :=
  permit_eq_next (outsideVirtual8086_eq_next h).2

theorem execRdtsc_eq_next {s t : State} (h : execRdtsc s = .next t) :
    ∃ v, t = (((s.setTsc v).setEdxEax v).setDraws (s.draws + 1)).setAnswer (.value v) := by
  obtain ⟨-, h⟩ := tscGate_eq_next h
  exact ⟨_, giveValue_eq_next h⟩

theorem execRdtscp_eq_next {s t : State} (h : execRdtscp s = .next t) :
    ∃ v c, t = ((((s.setTsc v).setEdxEax v).setReg32 ecx c).setDraws (s.draws + 2)).setAnswer (.value v) := by
  obtain ⟨-, h⟩ := tscGate_eq_next h
  exact ⟨_, _, giveValue_eq_next h⟩

theorem execMovRDr_eq_next {m : BitVec 2} {n r : BitVec 4} {s t : State} (h : execMovRDr m n r s = .next t) :
    ∃ v, t = (s.dstReg r v).setAnswer (.value v) ∧ (v = s.dr6 ∨ v = s.dr7) := by
  obtain ⟨v, hv, h⟩ := andThen_eq_next h
  refine ⟨v, giveValue_eq_next h, ?_⟩
  rcases readDr_eq_next hv with ⟨-, e⟩ | ⟨-, e⟩
  · exact .inl e
  · exact .inr e

theorem execMovDrR_eq_next {m : BitVec 2} {n r : BitVec 4} {s t : State} (h : execMovDrR m n r s = .next t) :
    t = (s.setDr6 (s.srcReg r)).setAnswer .nothing ∨ t = (s.setDr7 (s.srcReg r)).setAnswer .nothing := by
  obtain ⟨u, hu, h⟩ := andThen_eq_next h
  rcases writeDr_eq_next hu with ⟨-, rfl⟩ | ⟨-, rfl⟩
  · exact .inl (done_eq_next h)
  · exact .inr (done_eq_next h)

theorem execRdpmc_eq_next {s t : State} (h : execRdpmc s = .next t) :
    ∃ v, t = (((s.setPerf (storePut perfDefault s.perf (s.reg32 ecx).toNat v)).setEdxEax v).setDraws
      (s.draws + 1)).setAnswer (.value v) := by
  replace h := (outsideVirtual8086_eq_next h).2
  unfold raise at h
  split at h
  · cases h
  · exact ⟨_, giveValue_eq_next h⟩

theorem execFxsave_eq_next {op : MemOperand} {s t : State} (h : execFxsave op s = .next t) :
    t = ((s.setMem (memStoreImage (s.imageAddress op) s.fxByte Config.fxImageBytes s.mem)).setDraws
      (s.draws + 1)).setAnswer (.moved s.fxMoved) := by
  cases (outsideVirtual8086_eq_next h).2; rfl

theorem execFxrstor_eq_next {op : MemOperand} {s t : State} (h : execFxrstor op s = .next t) :
    t = ((s.setMedia (s.fxMedia op)).setDraws (s.draws + 1)).setAnswer (.moved s.fxMoved) := by
  cases (outsideVirtual8086_eq_next h).2; rfl

theorem execXgetbv_eq_next {s t : State} (h : execXgetbv s = .next t) :
    ∃ v, t = ((s.setEdxEax v).setDraws (s.draws + 1)).setAnswer (.value v) := by
  obtain ⟨-, h⟩ := requireOsxsave_eq_next h
  exact ⟨_, giveValue_eq_next h⟩

theorem execXsetbv_eq_next {s t : State} (h : execXsetbv s = .next t) :
    s.gateCpl = 0 ∧ t = ((s.setXcr0 s.xcr0Written).setDraws (s.draws + 1)).setAnswer .permitted := by
  obtain ⟨-, h⟩ := requireOsxsave_eq_next h
  unfold raise at h
  split at h
  · cases h
  · rename_i hn; exact ⟨by simpa using hn, permit_eq_next h⟩

theorem execXsave_eq_next {op : MemOperand} {s t : State} (h : execXsave op s = .next t) :
    ∃ f n, t = ((s.setMem (memStoreImage (s.imageAddress op) f n s.mem)).setDraws
      (s.draws + 1)).setAnswer .permitted := by
  obtain ⟨-, h⟩ := requireOsxsave_eq_next h
  exact ⟨_, _, permit_eq_next h⟩

theorem execXrstor_eq_next {op : MemOperand} {s t : State} (h : execXrstor op s = .next t) :
    t = ((s.setMedia (s.xMedia op)).setDraws (s.draws + 1)).setAnswer .permitted := by
  obtain ⟨-, h⟩ := requireOsxsave_eq_next h
  exact permit_eq_next h

theorem execSyscall_eq_next {s t : State} (h : execSyscall s = .next t) :
    s.sce = true ∧ t = s.setAnswer .permitted := by
  replace h := (outsideVirtual8086_eq_next h).2
  unfold raise at h
  split at h
  · cases h
  · rename_i hn; exact ⟨by simpa using hn, permit_eq_next h⟩

theorem execSysret_eq_next {s t : State} (h : execSysret s = .next t) :
    s.sce = true ∧ s.gateCpl = 0 ∧ t = s.setAnswer .permitted := by
  replace h := (outsideVirtual8086_eq_next h).2
  unfold raise at h
  split at h
  · cases h
  · rename_i h1
    split at h
    · cases h
    · rename_i h2; exact ⟨by simpa using h1, by simpa using h2, permit_eq_next h⟩

/-- Each SVM instruction that answers passed the gate and changed nothing. -/
theorem svm_eq_next {s t : State} (h : svmGate s s.permit = .next t) : t = s.setAnswer .permitted :=
  permit_eq_next (svmGate_eq_next h).2

theorem execCpuid_eq_next {s t : State} (h : execCpuid s = .next t) :
    ∃ a b c d, t = ((((s.setReg32 eax a).setReg32 ebx b).setReg32 ecx c).setReg32 edx d).setAnswer .permitted :=
  ⟨_, _, _, _, permit_eq_next (outsideVirtual8086_eq_next h).2⟩

end Sys2Proof.Machine
end

