-- ==== Sys2Proof/Laws/PerInstr.lean ====
section
/-! SUPPORT. Statements made per instruction: the length of an encoding is that of an x86 instruction, 1 to 15 bytes
(30_encoding.md R101). -/

/-- A well-formed instruction is encoded in 1 to 15 bytes, in any code. -/
def Sys2Proof.Laws.EncodedLength.Statement (i : Sys2Proof.Instr) : Prop :=
  i.wf = true → ∀ c, 1 ≤ (Sys2Proof.encode c i).length ∧ (Sys2Proof.encode c i).length ≤ 15

namespace Sys2Proof.Laws.EncodedLength

/-- A register form has three bytes, or four with REX. -/
theorem regForm (op : Byte) (m : BitVec 2) (n r : BitVec 4) :
    1 ≤ (encodeReg op m n r).length ∧ (encodeReg op m n r).length ≤ 15 := by
  unfold encodeReg rexBytes
  split <;> simp

/-- At most four displacement bytes follow. -/
theorem dispBytes_le (asz : AddrSize) (mod : BitVec 2) (rm : BitVec 3) (sib : Option Byte) :
    MemOperand.dispBytes asz mod rm sib ≤ 4 := by
  unfold MemOperand.dispBytes
  repeat' split
  all_goals omega

/-- A well-formed memory form has at most eleven bytes. -/
theorem memForm (c : CodeSize) (ext : BitVec 3) (op : MemOperand) (h : op.wf = true) :
    1 ≤ (encodeMem c ext op).length ∧ (encodeMem c ext op).length ≤ 15 := by
  have hd : op.disp.length = MemOperand.dispBytes op.asz op.mod op.rm op.sib := by
    simp only [MemOperand.wf, Bool.and_eq_true, beq_iff_eq] at h; exact h.1.2
  have hle := dispBytes_le op.asz op.mod op.rm op.sib
  have h67 : (if op.asz = c.addrSize then [] else [0x67#8] : List Byte).length ≤ 1 := by split <;> simp
  unfold encodeMem
  rw [List.length_append]
  cases op.seg <;> cases op.rex <;> cases hs : op.sib <;> simp [hs] at * <;> omega

theorem movRCr (m : BitVec 2) (n r : BitVec 4) : Statement (.movRCr m n r) := fun _ _ => regForm _ m n r
theorem movCrR (m : BitVec 2) (n r : BitVec 4) : Statement (.movCrR m n r) := fun _ _ => regForm _ m n r
theorem rdmsr : Statement .rdmsr := fun _ _ => by simp [encode]
theorem wrmsr : Statement .wrmsr := fun _ _ => by simp [encode]
theorem cli : Statement .cli := fun _ _ => by simp [encode]
theorem sti : Statement .sti := fun _ _ => by simp [encode]
theorem int (i : Byte) : Statement (.int i) := fun _ _ => by simp [encode]
theorem rdtsc : Statement .rdtsc := fun _ _ => by simp [encode]
theorem rdtscp : Statement .rdtscp := fun _ _ => by simp [encode]
theorem movRDr (m : BitVec 2) (n r : BitVec 4) : Statement (.movRDr m n r) := fun _ _ => regForm _ m n r
theorem movDrR (m : BitVec 2) (n r : BitVec 4) : Statement (.movDrR m n r) := fun _ _ => regForm _ m n r
theorem rdpmc : Statement .rdpmc := fun _ _ => by simp [encode]
theorem fxsave (op : MemOperand) : Statement (.fxsave op) := fun h c => memForm c _ op h
theorem fxrstor (op : MemOperand) : Statement (.fxrstor op) := fun h c => memForm c _ op h
theorem xgetbv : Statement .xgetbv := fun _ _ => by simp [encode]
theorem xsetbv : Statement .xsetbv := fun _ _ => by simp [encode]
theorem xsave (op : MemOperand) : Statement (.xsave op) := fun h c => memForm c _ op h
theorem xrstor (op : MemOperand) : Statement (.xrstor op) := fun h c => memForm c _ op h
theorem syscall : Statement .syscall := fun _ _ => by simp [encode]
theorem sysret : Statement .sysret := fun _ _ => by simp [encode]
theorem vmrun : Statement .vmrun := fun _ _ => by simp [encode]
theorem vmmcall : Statement .vmmcall := fun _ _ => by simp [encode]
theorem vmload : Statement .vmload := fun _ _ => by simp [encode]
theorem vmsave : Statement .vmsave := fun _ _ => by simp [encode]
theorem stgi : Statement .stgi := fun _ _ => by simp [encode]
theorem clgi : Statement .clgi := fun _ _ => by simp [encode]
theorem skinit : Statement .skinit := fun _ _ => by simp [encode]
theorem invlpga : Statement .invlpga := fun _ _ => by simp [encode]
theorem cpuid : Statement .cpuid := fun _ _ => by simp [encode]

end Sys2Proof.Laws.EncodedLength
end

