-- ==== Sys2Proof/Laws/Store.lean ====
section
/-! SUPPORT. Sparse stores and memory: a read after a write, and that every write keeps the canonical form. -/

namespace Sys2Proof.Machine

section
variable {α : Type} [DecidableEq α] (d : α)

/-- The canonical form, as a proposition. -/
theorem storeWf_iff (l : List (Nat × α)) :
    storeWf d l = true ↔ l.Pairwise (fun p q => p.1 < q.1) ∧ ∀ p ∈ l, p.2 ≠ d := by
  simp [storeWf]

omit [DecidableEq α] in
/-- A key below every listed key reads the default. -/
theorem storeGet_below (l : List (Nat × α)) (a : Nat) (h : ∀ p ∈ l, a < p.1) : storeGet d l a = d := by
  induction l with
  | nil => rfl
  | cons p t ih =>
    have h1 := h p (by simp)
    have h2 : ¬ p.1 = a := by omega
    simp only [storeGet, h2, if_false]
    exact ih fun q hq => h q (by simp [hq])

/-- Every key of a written store is the key written or was there. -/
theorem storePut_keys (l : List (Nat × α)) (a : Nat) (v : α) :
    ∀ p ∈ storePut d l a v, p.1 = a ∨ ∃ q ∈ l, q.1 = p.1 := by
  induction l with
  | nil => intro p; simp only [storePut]; split <;> simp_all
  | cons q t ih =>
    intro p hp
    simp only [storePut] at hp
    split at hp
    · split at hp
      · exact .inr ⟨p, hp, rfl⟩
      · rcases List.mem_cons.1 hp with rfl | hp
        · exact .inl rfl
        · exact .inr ⟨p, hp, rfl⟩
    · split at hp
      · split at hp
        · exact .inr ⟨p, by simp [hp], rfl⟩
        · rcases List.mem_cons.1 hp with rfl | hp
          · exact .inl rfl
          · exact .inr ⟨p, by simp [hp], rfl⟩
      · rcases List.mem_cons.1 hp with rfl | hp
        · exact .inr ⟨_, by simp, rfl⟩
        · rcases ih p hp with h | ⟨r, hr, e⟩
          · exact .inl h
          · exact .inr ⟨r, by simp [hr], e⟩

/-- A write keeps the canonical form. -/
theorem storePut_wf (l : List (Nat × α)) (a : Nat) (v : α) (h : storeWf d l = true) :
    storeWf d (storePut d l a v) = true := by
  rw [storeWf_iff] at h ⊢
  obtain ⟨hs, hd⟩ := h
  induction l with
  | nil => simp only [storePut]; split <;> simp_all
  | cons q t ih =>
    have hq := List.pairwise_cons.1 hs
    simp only [storePut]
    split
    · rename_i hlt
      split
      · exact ⟨hs, hd⟩
      · rename_i hv
        refine ⟨List.pairwise_cons.2 ⟨?_, hs⟩, ?_⟩
        · intro p hp
          rcases List.mem_cons.1 hp with rfl | hp
          · exact hlt
          · exact lt_trans hlt (hq.1 p hp)
        · intro p hp
          rcases List.mem_cons.1 hp with rfl | hp
          · exact hv
          · exact hd p hp
    · split
      · rename_i heq
        split
        · exact ⟨hq.2, fun p hp => hd p (by simp [hp])⟩
        · rename_i hv
          refine ⟨List.pairwise_cons.2 ⟨?_, hq.2⟩, ?_⟩
          · intro p hp; have := hq.1 p hp; simp only; omega
          · intro p hp
            rcases List.mem_cons.1 hp with rfl | hp
            · exact hv
            · exact hd p (by simp [hp])
      · rename_i hnlt hne
        obtain ⟨i1, i2⟩ := ih hq.2 fun p hp => hd p (by simp [hp])
        refine ⟨List.pairwise_cons.2 ⟨?_, i1⟩, ?_⟩
        · intro p hp
          rcases storePut_keys d t a v p hp with h | ⟨r, hr, e⟩
          · simp only; omega
          · have := hq.1 r hr; simp only; omega
        · intro p hp
          rcases List.mem_cons.1 hp with rfl | hp
          · exact hd _ (by simp)
          · exact i2 p hp

/-- A write leaves every other key, in any store. -/
theorem storeGet_storePut_other (l : List (Nat × α)) {a b : Nat} (v : α) (hb : b ≠ a) :
    storeGet d (storePut d l a v) b = storeGet d l b := by
  have hb' : ¬ a = b := fun e => hb e.symm
  induction l with
  | nil => simp only [storePut]; split <;> simp [storeGet, hb']
  | cons q t ih =>
    simp only [storePut]
    split
    · split <;> simp [storeGet, hb']
    · split
      · rename_i heq
        have e : ¬ q.1 = b := by omega
        split <;> simp [storeGet, hb', e]
      · simp only [storeGet, ih]

/-- A read after a write: the value written at its key, the old value elsewhere. -/
theorem storeGet_storePut (l : List (Nat × α)) (a b : Nat) (v : α) (h : storeWf d l = true) :
    storeGet d (storePut d l a v) b = if b = a then v else storeGet d l b := by
  rw [storeWf_iff] at h
  obtain ⟨hs, hd⟩ := h
  induction l with
  | nil =>
    simp only [storePut, storeGet]
    split
    · rename_i hv; simp [storeGet, hv]
    · by_cases e : b = a
      · simp [storeGet, e]
      · have e' : ¬ a = b := fun h => e h.symm
        simp [storeGet, e, e']
  | cons q t ih =>
    have hq := List.pairwise_cons.1 hs
    simp only [storePut]
    split
    · rename_i hlt
      have hbelow : storeGet d (q :: t) a = d := storeGet_below d _ a (by
        intro p hp
        rcases List.mem_cons.1 hp with rfl | hp
        · exact hlt
        · exact lt_trans hlt (hq.1 p hp))
      split
      · rename_i hv
        split
        · rename_i e; subst e; rw [hbelow, hv]
        · rfl
      · by_cases e : b = a
        · simp [storeGet, e]
        · have e' : ¬ a = b := fun h => e h.symm
          simp [storeGet, e, e']
    · split
      · rename_i heq
        have hbelow : storeGet d t a = d := storeGet_below d _ a (by
          intro p hp; have := hq.1 p hp; omega)
        split
        · rename_i hv
          by_cases e : b = a
          · simp [e, hbelow, hv]
          · have e' : ¬ q.1 = b := by omega
            simp [storeGet, e, e']
        · by_cases e : b = a
          · simp [storeGet, e]
          · have e' : ¬ a = b := fun h => e h.symm
            have e'' : ¬ q.1 = b := by omega
            simp [storeGet, e, e', e'']
      · rename_i hnlt hne
        simp only [storeGet]
        split
        · rename_i e
          have : ¬ b = a := by omega
          simp [this]
        · exact ih hq.2 fun p hp => hd p (by simp [hp])

end

/-- Memory: a read after a write. -/
theorem memRead_memWrite (m : List Host.Cell) (a c : Nat) (b : Byte) (h : Memory.wf m = true) :
    memRead (memWrite m a b) c = if c = a then b else memRead m c :=
  storeGet_storePut memDefault m a c b h

/-- Memory: a write keeps the canonical form. -/
theorem memWrite_wf (m : List Host.Cell) (a : Nat) (b : Byte) (h : Memory.wf m = true) :
    Memory.wf (memWrite m a b) = true :=
  storePut_wf memDefault m a b h

/-- Storing an image keeps the canonical form. -/
theorem memStoreImage_wf (addr : Nat → Nat) (f : Nat → Option Byte) (n : Nat) (m : List Host.Cell)
    (h : Memory.wf m = true) : Memory.wf (memStoreImage addr f n m) = true := by
  induction n with
  | zero => exact h
  | succ n ih =>
    simp only [memStoreImage]
    split
    · exact memWrite_wf _ _ _ ih
    · exact ih

/-- Memory at reset is in its canonical form. -/
theorem reset_mem_wf : Memory.wf State.reset.mem = true := by decide

/-- Memory: a write leaves every other byte. -/
theorem memRead_memWrite_other (m : List Host.Cell) {a c : Nat} (b : Byte) (h : c ≠ a) :
    memRead (memWrite m a b) c = memRead m c :=
  storeGet_storePut_other memDefault m b h

/-- Storing an image leaves every byte that is none of the addresses it stores to. -/
theorem memRead_memStoreImage_other (addr : Nat → Nat) (f : Nat → Option Byte) (n : Nat) (m : List Host.Cell)
    (a : Nat) (ha : ∀ i < n, f i ≠ none → addr i ≠ a) :
    memRead (memStoreImage addr f n m) a = memRead m a := by
  induction n with
  | zero => rfl
  | succ n ih =>
    have ih' := ih fun i hi => ha i (by omega)
    simp only [memStoreImage]
    split
    · rename_i b hb
      rw [memRead_memWrite_other _ _ fun e => ha n (by omega) (by simp [hb]) e.symm, ih']
    · exact ih'

end Sys2Proof.Machine
end

