-- ==== Sys2Proof/Tests/Slice0.lean ====
section
/-! SUPPORT. The model's own tests: well-formedness, decoding of every row, and one step of each instruction against the
vectors of 95_test_vectors.md (named V<n> there); and for every statement with hypotheses, a state that meets them. -/

namespace Sys2Proof.Tests
open Sys2Proof Sys2Proof.Machine

/-! ## Helpers -/

/-- Every feature present (the conventions of 95_test_vectors.md). -/
def full : Params := ⟨.x86_64, true, true, true, true, .refuse⟩

/-- No feature present. -/
def bare : Params := ⟨.x86_32, false, false, false, false, .refuse⟩

/-- A state with the given CR0, CR4, EFER and CPL; else the vectors' conventions. -/
def mk (cr0 cr4 efer : Word) (cpl : Fin 4) : State :=
  { State.reset with
    params := full, vmCr := ⟨false, false⟩, cr0 := cr0, cr4 := cr4, efer := efer, cpl := cpl }

/-- The same with flags (IF, VIF, VIP), IOPL and VM. -/
def mkFlags (cr4 : Word) (cpl : Fin 4) (iopl : BitVec 2) (i v p vm : Bool) : State :=
  { mk 0x11#64 cr4 0#64 cpl with rflags := ⟨i, v, p, iopl, vm⟩ }

/-- `s` with ECX naming EFER and EDX:EAX holding `v`. -/
def withMsr (s : State) (v : Word) : State :=
  (s.setEdxEax v).setGpr 1#4 0xC0000080#64

/-- `s` with register 3 holding `v`. -/
def src (s : State) (v : Word) : State := s.setGpr 3#4 v

/-- A field of the next state, if there is one. -/
def got {α : Type} (o : Result State) (f : State → α) : Option α :=
  match o with
  | .next t => some (f t)
  | .fault _ => none
  | .refused _ => none

/-- The fault, if there is one. -/
def stop (o : Result State) : Option Fault :=
  match o with
  | .next _ => none
  | .fault f => some f
  | .refused _ => none

/-- The refusal, if there is one. -/
def refusal (o : Result State) : Option Refusal :=
  match o with
  | .next _ => none
  | .fault _ => none
  | .refused r => some r

/-- The memory operand of `0F AE /n` with ModRM 00 000 in 32-bit addressing: `[eax]`. -/
def atEax : MemOperand := ⟨.a32, none, none, 0#2, 0#3, none, []⟩

/-- What the decoder answers. -/
def dec (c : CodeSize) (bs : List Byte) : Option (Instr × List Byte) := (decode c bs).toOption

/-- Why the decoder answers nothing. -/
def decError (c : CodeSize) (bs : List Byte) : Option DecodeError :=
  match decode c bs with
  | .ok _ => none
  | .error e => some e

/-! ## Well-formedness: each check refuses an ill-formed term -/

theorem test_wf_mod : (Instr.fxsave ⟨.a32, none, none, 3#2, 0#3, none, []⟩).wf = false := by decide
theorem test_wf_sib_missing : (Instr.fxrstor ⟨.a32, none, none, 0#2, 4#3, none, []⟩).wf = false := by decide
theorem test_wf_sib_extra : (Instr.xsave ⟨.a32, none, none, 0#2, 0#3, some 0#8, []⟩).wf = false := by decide
theorem test_wf_disp8 : (Instr.xrstor ⟨.a32, none, none, 1#2, 0#3, none, []⟩).wf = false := by decide
theorem test_wf_disp32 : (Instr.fxsave ⟨.a32, none, none, 2#2, 0#3, none, [0#8]⟩).wf = false := by decide
theorem test_wf_disp_extra : (Instr.fxsave ⟨.a32, none, none, 0#2, 0#3, none, [0#8]⟩).wf = false := by decide
theorem test_wf_sib_base5 : (Instr.fxsave ⟨.a32, none, none, 0#2, 4#3, some 5#8, []⟩).wf = false := by decide
theorem test_wf_ok :
    (Instr.fxsave ⟨.a32, some .fs, none, 1#2, 4#3, some 0x24#8, [8#8]⟩).wf = true ∧
    (Instr.xsave ⟨.a32, none, none, 0#2, 5#3, none, [1#8, 2#8, 3#8, 4#8]⟩).wf = true := by decide
theorem test_wf_rex16 : (Instr.fxsave ⟨.a16, none, some 0#4, 0#2, 0#3, none, []⟩).wf = false := by decide
theorem test_wf_disp16 : (Instr.fxsave ⟨.a16, none, none, 2#2, 4#3, none, [1#8, 2#8]⟩).wf = true ∧
    (Instr.fxsave ⟨.a16, none, none, 2#2, 4#3, none, [1#8]⟩).wf = false := by decide
theorem test_fits :
    (Instr.movRCr 3#2 0#4 9#4).fits .c32 = false ∧ (Instr.movRCr 3#2 0#4 9#4).fits .c64 = true ∧
    (Instr.fxsave ⟨.a16, none, none, 0#2, 0#3, none, []⟩).fits .c64 = false ∧
    (Instr.fxsave ⟨.a64, none, none, 0#2, 0#3, none, []⟩).fits .c32 = false := by decide

/-! ## Decoding: every row from bytes written out from spec/opcode_table.json (V180 to V197) -/

theorem test_dec_movRCr : dec .c32 [0x0F#8, 0x20#8, 0xC0#8] = some (.movRCr 3#2 0#4 0#4, []) ∧
    dec .c32 [0x0F#8, 0x20#8, 0xD9#8] = some (.movRCr 3#2 3#4 1#4, []) := by decide
theorem test_dec_movCrR : dec .c32 [0x0F#8, 0x22#8, 0xE3#8] = some (.movCrR 3#2 4#4 3#4, []) ∧
    dec .c32 [0x0F#8, 0x22#8, 0x00#8] = some (.movCrR 0#2 0#4 0#4, []) := by decide
theorem test_dec_movRDr : dec .c32 [0x0F#8, 0x21#8, 0xE0#8] = some (.movRDr 3#2 4#4 0#4, []) := by decide
theorem test_dec_movDrR : dec .c32 [0x0F#8, 0x23#8, 0xE9#8] = some (.movDrR 3#2 5#4 1#4, []) := by decide
theorem test_dec_rdmsr : dec .c32 [0x0F#8, 0x32#8] = some (.rdmsr, []) := by decide
theorem test_dec_wrmsr : dec .c32 [0x0F#8, 0x30#8] = some (.wrmsr, []) := by decide
theorem test_dec_cli : dec .c32 [0xFA#8] = some (.cli, []) := by decide
theorem test_dec_sti : dec .c32 [0xFB#8] = some (.sti, []) := by decide
theorem test_dec_int : dec .c32 [0xCD#8, 0x80#8, 0xFA#8] = some (.int 0x80#8, [0xFA#8]) := by decide
theorem test_dec_rdtsc : dec .c32 [0x0F#8, 0x31#8] = some (.rdtsc, []) := by decide
theorem test_dec_rdtscp : dec .c32 [0x0F#8, 0x01#8, 0xF9#8] = some (.rdtscp, []) := by decide
theorem test_dec_rdpmc : dec .c32 [0x0F#8, 0x33#8] = some (.rdpmc, []) := by decide
theorem test_dec_fxsave : dec .c32 [0x0F#8, 0xAE#8, 0x00#8] = some (.fxsave atEax, []) := by decide
theorem test_dec_fxrstor : dec .c32 [0x0F#8, 0xAE#8, 0x08#8] = some (.fxrstor atEax, []) := by decide
theorem test_dec_xsave : dec .c32 [0x0F#8, 0xAE#8, 0x20#8] = some (.xsave atEax, []) := by decide
theorem test_dec_xrstor : dec .c32 [0x0F#8, 0xAE#8, 0x28#8] = some (.xrstor atEax, []) := by decide
theorem test_dec_xgetbv : dec .c32 [0x0F#8, 0x01#8, 0xD0#8] = some (.xgetbv, []) := by decide
theorem test_dec_xsetbv : dec .c32 [0x0F#8, 0x01#8, 0xD1#8] = some (.xsetbv, []) := by decide
theorem test_dec_syscall : dec .c32 [0x0F#8, 0x05#8] = some (.syscall, []) := by decide
theorem test_dec_sysret : dec .c32 [0x0F#8, 0x07#8] = some (.sysret, []) := by decide
theorem test_dec_vmrun : dec .c32 [0x0F#8, 0x01#8, 0xD8#8] = some (.vmrun, []) := by decide
theorem test_dec_vmmcall : dec .c32 [0x0F#8, 0x01#8, 0xD9#8] = some (.vmmcall, []) := by decide
theorem test_dec_vmload : dec .c32 [0x0F#8, 0x01#8, 0xDA#8] = some (.vmload, []) := by decide
theorem test_dec_vmsave : dec .c32 [0x0F#8, 0x01#8, 0xDB#8] = some (.vmsave, []) := by decide
theorem test_dec_stgi : dec .c32 [0x0F#8, 0x01#8, 0xDC#8] = some (.stgi, []) := by decide
theorem test_dec_clgi : dec .c32 [0x0F#8, 0x01#8, 0xDD#8] = some (.clgi, []) := by decide
theorem test_dec_skinit : dec .c32 [0x0F#8, 0x01#8, 0xDE#8] = some (.skinit, []) := by decide
theorem test_dec_invlpga : dec .c32 [0x0F#8, 0x01#8, 0xDF#8] = some (.invlpga, []) := by decide
theorem test_dec_cpuid : dec .c32 [0x0F#8, 0xA2#8] = some (.cpuid, []) := by decide

/-- REX.R and REX.B in 64-bit mode (R101, R102); the same bytes are no instruction elsewhere. -/
theorem test_dec_rex : dec .c64 [0x45#8, 0x0F#8, 0x20#8, 0xC1#8] = some (.movRCr 3#2 8#4 9#4, []) ∧
    decError .c32 [0x45#8, 0x0F#8, 0x20#8, 0xC1#8] = some .notInSpec := by decide
/-- A segment byte, a SIB byte and a 32-bit displacement (R101). -/
theorem test_dec_mem : dec .c32 [0x64#8, 0x0F#8, 0xAE#8, 0xA4#8, 0x24#8, 1#8, 2#8, 3#8, 4#8, 0xFA#8] =
    some (.xsave ⟨.a32, some .fs, none, 2#2, 4#3, some 0x24#8, [1#8, 2#8, 3#8, 4#8]⟩, [0xFA#8]) := by decide
/-- A 16-bit displacement, of mod 10 and of rm 6, in 16-bit code and with 67h in 32-bit code (R101); 66h and F3h are
legacy bytes of any form (R101). -/
theorem test_dec_mem16 :
    dec .c16 [0x0F#8, 0xAE#8, 0x86#8, 1#8, 2#8, 0xFA#8] =
      some (.fxsave ⟨.a16, none, none, 2#2, 6#3, none, [1#8, 2#8]⟩, [0xFA#8]) ∧
    dec .c32 [0x67#8, 0x0F#8, 0xAE#8, 0x0E#8, 1#8, 2#8, 0xFA#8] =
      some (.fxrstor ⟨.a16, none, none, 0#2, 6#3, none, [1#8, 2#8]⟩, [0xFA#8]) ∧
    dec .c16 [0x66#8, 0x67#8, 0x0F#8, 0xAE#8, 0x00#8, 0xFA#8] = some (.fxsave atEax, [0xFA#8]) ∧
    dec .c32 [0xF3#8, 0xFA#8] = some (.cli, []) := by decide
/-- V192, V197, LOCK (R106), bytes that end early, and more than the 15 bytes of R101, which no LOCK byte makes #UD. -/
theorem test_dec_refused : decError .c32 [0x0F#8, 0xAE#8, 0xE8#8] = some .notInSpec ∧
    decError .c32 [0x90#8] = some .notInSpec ∧ decError .c32 [0xF0#8, 0xFA#8] = some (.lockForm .cli) ∧
    decError .c32 [0x0F#8, 0x20#8] = some .truncated ∧
    decError .c32 (0xF0#8 :: (List.replicate 13 0x66#8 ++ [0xFA#8])) = some (.lockForm .cli) ∧
    decError .c32 (0xF0#8 :: (List.replicate 14 0x66#8 ++ [0xFA#8])) = some .tooLong := by decide

/-! ## One step of each instruction -/

/-- V1, V2, V11: bit 4 stays. -/
theorem test_movCrR_cr0 :
    got (exec (.movCrR 3#2 0#4 3#4) (src (mk 0x10#64 0#64 0#64 0) 1#64)) (fun t => t.cr0) = some 0x11#64 ∧
    got (exec (.movCrR 3#2 0#4 3#4) (src (mk 0x11#64 0#64 0#64 0) 0#64)) (fun t => t.cr0) = some 0x10#64 ∧
    got (exec (.movCrR 3#2 0#4 3#4) (src (mk 0x11#64 0#64 0#64 0) 0x6005002F#64)) (fun t => t.cr0) =
      some 0x6005003F#64 := by decide
/-- V3, V5, V6, V7, V8, V9, V10. -/
theorem test_movCrR_cr0_longMode :
    stop (exec (.movCrR 3#2 0#4 3#4) (src (mk 0x10#64 0#64 0#64 0) 0x80000000#64)) = some .notPermitted ∧
    got (exec (.movCrR 3#2 0#4 3#4) (src (mk 0x11#64 0x20#64 0x100#64 0) 0x80000011#64))
      (fun t => (t.cr0, t.efer)) = some (0x80000011#64, 0x500#64) ∧
    stop (exec (.movCrR 3#2 0#4 3#4) (src (mk 0x11#64 0#64 0x100#64 0) 0x80000011#64)) = some .notPermitted ∧
    got (exec (.movCrR 3#2 0#4 3#4) (src (mk 0x80000011#64 0x20#64 0x500#64 0) 0x11#64))
      (fun t => (t.cr0, t.efer)) = some (0x11#64, 0x100#64) ∧
    refusal (exec (.movCrR 3#2 0#4 3#4) ((src (mk 0x80000011#64 0x20#64 0x500#64 0) 0x11#64).setCsL true)) =
      some .leavingLongModeFrom64BitMode ∧
    stop (exec (.movCrR 3#2 0#4 3#4) (src (mk 0x11#64 0#64 0#64 3) 0x11#64)) = some .notPermitted := by decide
/-- V20, V12, V13, V23, V50: reading the control registers. -/
theorem test_movRCr :
    refusal (exec (.movRCr 3#2 1#4 0#4) (mk 0x11#64 0#64 0#64 0)) = some .cr1Reserved ∧
    got (exec (.movRCr 3#2 0#4 0#4) (mk 0x6005003F#64 0#64 0#64 0)) (fun t => t.getGpr 0#4) =
      some 0x6005003F#64 ∧
    stop (exec (.movRCr 3#2 0#4 0#4) (mk 0x80000011#64 0#64 0#64 1)) = some .notPermitted ∧
    got (exec (.movRCr 3#2 4#4 1#4) (mk 0x11#64 0x406B0#64 0#64 0)) (fun t => (t.getGpr 1#4, t.answer)) =
      some (0x406B0#64, .value 0x406B0#64) := by decide
/-- Outside 64-bit mode the upper half of CR2 is not read (R121). -/
theorem test_movRCr_narrow :
    got (exec (.movRCr 3#2 2#4 5#4) ((mk 0x11#64 0#64 0#64 0).setCr2 0x10804A123#64))
      (fun t => t.getGpr 5#4) = some 0x0804A123#64 ∧
    got (exec (.movRCr 3#2 2#4 5#4) (((mk 0x80000011#64 0x20#64 0x500#64 0).setCsL true).setCr2 0x10804A123#64))
      (fun t => t.getGpr 5#4) = some 0x10804A123#64 := by decide
/-- V36, V37, V39, V40, V43 and R116: CR3 and the TLB. -/
theorem test_movCrR_cr3 :
    got (exec (.movCrR 3#2 3#4 3#4) ((src (mk 0x11#64 0x80#64 0#64 0) 0x200000#64).setTlb
      [⟨1#64, 1#64, true⟩, ⟨2#64, 2#64, false⟩])) (fun t => (t.cr3, t.tlb)) =
      some (0x200000#64, [⟨1#64, 1#64, true⟩]) ∧
    got (exec (.movCrR 3#2 3#4 3#4) ((src (mk 0x11#64 0#64 0#64 0) 0x200000#64).setTlb
      [⟨1#64, 1#64, true⟩, ⟨2#64, 2#64, false⟩])) (fun t => t.tlb) = some [] ∧
    refusal (exec (.movCrR 3#2 3#4 3#4) (src (mk 0x11#64 0#64 0#64 0) 0x00ABC7E8#64)) = some .reservedBits ∧
    got (exec (.movCrR 3#2 3#4 3#4) (src (mk 0x11#64 0x20#64 0#64 0) 0x00ABC7E8#64)) (fun t => t.cr3) =
      some 0x00ABC7E8#64 ∧
    refusal (exec (.movCrR 3#2 3#4 3#4) (src (mk 0x80000011#64 0x20#64 0x500#64 0) 0x200000#64)) =
      some .cr3LongModeFormatNotInSource := by decide
/-- V52, V53, V56, V57, V58: CR4. -/
theorem test_movCrR_cr4 :
    got (exec (.movCrR 3#2 4#4 3#4) (src (mk 0x11#64 0#64 0#64 0) 0x407FF#64)) (fun t => t.cr4) =
      some 0x407FF#64 ∧
    refusal (exec (.movCrR 3#2 4#4 3#4) (src (mk 0x11#64 0#64 0#64 0) 0x800#64)) = some .reservedBits ∧
    refusal (exec (.movCrR 3#2 4#4 3#4) (src { mk 0x11#64 0#64 0#64 0 with params := bare } 0x40000#64)) =
      some .featureAbsent ∧
    stop (exec (.movCrR 3#2 4#4 3#4) (src (mk 0x80000011#64 0x20#64 0x500#64 0) 0#64)) = some .notPermitted ∧
    got (exec (.movCrR 3#2 4#4 3#4) (src (mk 0x80000011#64 0x20#64 0x500#64 0) 0xA0#64)) (fun t => t.cr4) =
      some 0xA0#64 := by decide
/-- R64: a CR4 write that clears PAE leaves CR3[11:5] = 0, and one that keeps it leaves CR3. -/
theorem test_movCrR_cr4_cr3 :
    got (exec (.movCrR 3#2 4#4 3#4) ((src (mk 0x11#64 0x20#64 0#64 0) 0#64).setCr3 0x00ABC7E8#64))
      (fun t => t.cr3) = some 0x00ABC008#64 ∧
    got (exec (.movCrR 3#2 4#4 3#4) ((src (mk 0x11#64 0x20#64 0#64 0) 0x30#64).setCr3 0x00ABC7E8#64))
      (fun t => t.cr3) = some 0x00ABC7E8#64 := by decide
/-- V70, V195, V89. -/
theorem test_rdmsr :
    got (exec .rdmsr (withMsr (mk 0x80000011#64 0x20#64 0xD01#64 0) 0xFFFFFFFFFFFFFFFF#64))
      (fun t => (t.getGpr 0#4, t.getGpr 2#4)) = some (0xD01#64, 0#64) ∧
    stop (exec .rdmsr (withMsr (mk 0x11#64 0#64 0#64 3) 0#64)) = some .notPermitted := by decide
/-- V71, V196, V72, V74, V88. -/
theorem test_wrmsr :
    got (exec .wrmsr (withMsr (mk 0x11#64 0#64 0#64 0) 0x100#64)) (fun t => t.efer) = some 0x100#64 ∧
    stop (exec .wrmsr (withMsr (mk 0x80000011#64 0#64 0#64 0) 0x100#64)) = some .notPermitted ∧
    got (exec .wrmsr (withMsr (mk 0x80000011#64 0x20#64 0x500#64 0) 0x501#64)) (fun t => t.efer) =
      some 0x501#64 ∧
    got (exec .wrmsr (withMsr (mk 0x80000011#64 0#64 0#64 0) 0x7801#64)) (fun t => t.efer) =
      some 0x7801#64 := by decide
/-- V76, V78, V80, V82, V84, V90. -/
theorem test_wrmsr_refused :
    refusal (exec .wrmsr (withMsr (mk 0x11#64 0#64 0#64 0) 0x400#64)) = some .writeChangesReadOnlyLma ∧
    refusal (exec .wrmsr (withMsr (mk 0x11#64 0#64 0#64 0) 0x200#64)) = some .reservedBits ∧
    refusal (exec .wrmsr (withMsr { mk 0x11#64 0#64 0#64 0 with params := bare } 0x800#64)) =
      some .featureAbsent ∧
    refusal (exec .wrmsr (withMsr { mk 0x11#64 0#64 0#64 0 with vmCr := ⟨false, true⟩ } 0x1000#64)) =
      some .featureAbsent ∧
    refusal (exec .wrmsr ((withMsr (mk 0x11#64 0#64 0x1000#64 0) 0#64).setGuestRunning true)) =
      some .undefinedSvmeOffWhileGuestRuns ∧
    refusal (exec .wrmsr (withMsr (mk 0x11#64 0#64 0#64 0) 0x100000000#64)) = some .reservedBits := by decide
/-- V122, V123, V124, V125, V121. -/
theorem test_cli :
    stop (exec .cli (mkFlags 0#64 3 0#2 true false false false)) = some .notPermitted ∧
    got (exec .cli (mkFlags 2#64 3 0#2 true true false false)) (fun t => (t.rflags.ifl, t.rflags.vif)) =
      some (true, false) ∧
    stop (exec .cli (mkFlags 2#64 2 0#2 true true false false)) = some .notPermitted ∧
    got (exec .cli (mkFlags 2#64 3 3#2 true true false false)) (fun t => (t.rflags.ifl, t.rflags.vif)) =
      some (false, true) := by decide
/-- V126, V127, V128, V129. -/
theorem test_sti :
    got (exec .sti (mkFlags 2#64 3 0#2 false false false false)) (fun t => (t.rflags.ifl, t.rflags.vif)) =
      some (false, true) ∧
    stop (exec .sti (mkFlags 2#64 3 0#2 false false true false)) = some .notPermitted ∧
    got (exec .sti (mkFlags 0#64 0 0#2 false false false false)) (fun t => (t.rflags.ifl, t.rflags.vif)) =
      some (true, false) ∧
    refusal (exec .sti (mkFlags 0#64 3 3#2 false false false true)) = some .virtual8086ModeNotModelled := by
  decide
/-- V130, V129. -/
theorem test_int :
    got (exec (.int 0x80#8) (mkFlags 2#64 3 0#2 true false false false)) (fun t => t.answer) = some .permitted ∧
    refusal (exec (.int 0x80#8) (mkFlags 2#64 3 0#2 true false false true)) =
      some .virtual8086ModeNotModelled := by decide
/-- V101, V103: RDTSC; the value is a free value, so only the outcome is tested. -/
theorem test_rdtsc :
    got (exec .rdtsc (mk 0x11#64 0#64 0#64 3)) (fun t => t.draws) = some 1 ∧
    stop (exec .rdtsc (mk 0x11#64 4#64 0#64 3)) = some .notPermitted := by decide
/-- V102, V105, and R145. -/
theorem test_rdtscp :
    got (exec .rdtscp (mk 0x11#64 4#64 0#64 0)) (fun t => t.draws) = some 2 ∧
    stop (exec .rdtscp (mk 0x11#64 0x104#64 0#64 1)) = some .notPermitted := by decide
/-- V101, V104, V105. -/
theorem test_rdpmc :
    stop (exec .rdpmc (mk 0x11#64 0#64 0#64 3)) = some .notPermitted ∧
    got (exec .rdpmc (mk 0x11#64 0x100#64 0#64 3)) (fun t => t.draws) = some 1 := by decide
/-- V110, V111, V114, V115. -/
theorem test_movRDr :
    got (exec (.movRDr 3#2 4#4 0#4) (((mk 0x11#64 0#64 0#64 0).setDr6 6#64).setDr7 7#64))
      (fun t => t.getGpr 0#4) = some 6#64 ∧
    got (exec (.movRDr 3#2 5#4 0#4) (((mk 0x11#64 0#64 0#64 0).setDr6 6#64).setDr7 7#64))
      (fun t => t.getGpr 0#4) = some 7#64 ∧
    stop (exec (.movRDr 3#2 5#4 0#4) (mk 0x11#64 8#64 0#64 0)) = some .invalidOpcode := by decide
/-- V112, V113, V114. -/
theorem test_movDrR :
    got (exec (.movDrR 3#2 4#4 3#4) (src (mk 0x11#64 0#64 0#64 0) 9#64)) (fun t => (t.dr6, t.dr7)) =
      some (9#64, 0x400#64) ∧
    got (exec (.movDrR 3#2 5#4 3#4) (src (mk 0x11#64 0#64 0#64 0) 9#64)) (fun t => (t.dr6, t.dr7)) =
      some (0xFFFF0FF0#64, 9#64) ∧
    stop (exec (.movDrR 3#2 4#4 3#4) (mk 0x11#64 8#64 0#64 0)) = some .invalidOpcode := by decide
/-- V142 to V146: the components saved. -/
theorem test_fxsave :
    got (exec (.fxsave atEax) (mk 0x11#64 0#64 0#64 0)) (fun t => t.answer) = some (.moved [.x87, .mmx]) ∧
    got (exec (.fxsave atEax) (mk 0x11#64 0x200#64 0#64 0)) (fun t => t.answer) =
      some (.moved [.x87, .mmx, .mxcsr, .xmm]) ∧
    got (exec (.fxsave atEax) ((mk 0x80000011#64 0x220#64 0x4500#64 0).setCsL true)) (fun t => t.answer) =
      some (.moved [.x87, .mmx, .mxcsr]) ∧
    got (exec (.fxsave atEax) ((mk 0x80000011#64 0x220#64 0x4500#64 3).setCsL true)) (fun t => t.answer) =
      some (.moved [.x87, .mmx, .mxcsr, .xmm]) ∧
    got (exec (.fxsave atEax) (mk 0x80000011#64 0x220#64 0x4500#64 0)) (fun t => t.answer) =
      some (.moved [.x87, .mmx, .mxcsr, .xmm]) := by decide
/-- V147: with FFXSR in 64-bit mode at CPL 0 FXRSTOR leaves the XMM registers. -/
theorem test_fxrstor :
    got (exec (.fxrstor atEax) ((mk 0x80000011#64 0x220#64 0x4500#64 0).setCsL true))
      (fun t => (t.answer, t.media.xmm[15])) = some (.moved [.x87, .mmx, .mxcsr], 0) := by decide
/-- V140, V141, V148, V149, V150: the media classes. -/
theorem test_media :
    stop (takeEvent (.mediaInsn .w256) (mk 0x11#64 0#64 0#64 0)) = some .invalidOpcode ∧
    got (takeEvent (.mediaInsn .w128) (mk 0x11#64 0x200#64 0#64 0)) (fun t => t.answer) = some .permitted ∧
    stop (takeEvent (.mediaFpError .w128) (mk 0x11#64 0x200#64 0#64 0)) = some .invalidOpcode ∧
    stop (takeEvent (.mediaFpError .w256) (mk 0x11#64 0x600#64 0#64 0)) = some .simdFloatingPoint ∧
    refusal (takeEvent (.mediaFpError .w256) (mk 0x11#64 0x200#64 0#64 0)) =
      some .xf256WhenOsxmmexcpt0 := by decide
/-- V160. -/
theorem test_xsave_family_closed :
    stop (exec .xgetbv (mk 0x11#64 0#64 0#64 0)) = some .notPermitted ∧
    stop (exec .xsetbv (mk 0x11#64 0#64 0#64 0)) = some .notPermitted ∧
    stop (exec (.xsave atEax) (mk 0x11#64 0#64 0#64 0)) = some .notPermitted ∧
    stop (exec (.xrstor atEax) (mk 0x11#64 0#64 0#64 0)) = some .notPermitted := by decide
/-- V161, V162. -/
theorem test_xsave_family_open :
    got (exec .xgetbv (mk 0x11#64 0x40000#64 0#64 3)) (fun t => t.draws) = some 1 ∧
    got (exec .xsetbv (mk 0x11#64 0x40000#64 0#64 0)) (fun t => t.answer) = some .permitted ∧
    got (exec .xsetbv ((mk 0x11#64 0x40000#64 0#64 0).setGpr 1#4 1#64)) (fun t => t.xcr0) = some 1#64 ∧
    stop (exec .xsetbv (mk 0x11#64 0x40000#64 0#64 3)) = some .notPermitted ∧
    got (exec (.xrstor atEax) (mk 0x11#64 0x40000#64 0#64 3)) (fun t => t.answer) = some .permitted := by decide
/-- V170, V171. -/
theorem test_syscall :
    stop (exec .syscall (mk 0x11#64 0#64 0#64 3)) = some .notPermitted ∧
    got (exec .syscall (mk 0x11#64 0#64 1#64 3)) (fun t => t.answer) = some .permitted := by decide
/-- V172, V173, V174. -/
theorem test_sysret :
    got (exec .sysret (mk 0x11#64 0#64 1#64 0)) (fun t => t.answer) = some .permitted ∧
    stop (exec .sysret (mk 0x11#64 0#64 1#64 3)) = some .notPermitted ∧
    stop (exec .sysret (mk 0x11#64 0#64 0#64 0)) = some .notPermitted := by decide
/-- V175, V176. -/
theorem test_svm : ∀ i ∈ [Instr.vmrun, .vmmcall, .vmload, .vmsave, .stgi, .clgi, .skinit, .invlpga],
    stop (exec i (mk 0x11#64 0#64 0#64 0)) = some .invalidOpcode ∧
    got (exec i (mk 0x11#64 0#64 0x1000#64 0)) (fun t => t.answer) = some .permitted := by decide
/-- V177, S10 (the feature bits of function 8000_0001h): the bits are open or closed as the parameters say. -/
theorem test_cpuid :
    got (exec .cpuid ((mk 0x11#64 0#64 0#64 3).setGpr 0#4 0x80000001#64)) (fun t => t.answer) =
      some .permitted := by decide
/-- V22: a page fault loads CR2, and the next step is the fault. -/
theorem test_pageFault :
    got (step { mk 0x80000011#64 0#64 0#64 0 with schedule := [.event (.pageFault 0x0804A123#64)] })
      (fun t => (t.cr2, stop (step t))) =
      some (0x0804A123#64, some (.pageFault 0x0804A123#64)) := by decide
/-- D17: in virtual-8086 mode a gate with no other check is refused too. -/
theorem test_virtual8086 :
    refusal (exec .cpuid (mkFlags 0#64 3 0#2 true false false true)) = some .virtual8086ModeNotModelled ∧
    refusal (exec (.fxsave atEax) (mkFlags 0x200#64 3 0#2 true false false true)) =
      some .virtual8086ModeNotModelled ∧
    refusal (exec (.movRDr 3#2 6#4 0#4) (mkFlags 0#64 3 0#2 true false false true)) =
      some .virtual8086ModeNotModelled ∧
    stop (exec (.movRCr 3#2 0#4 0#4) (mkFlags 0#64 3 0#2 true false false true)) = some .notPermitted := by
  decide
/-- S6, and R107: the superpage, and the default operand size in real, protected, compatibility and 64-bit mode. -/
theorem test_superpage_operandBits :
    (mk 0x11#64 0x20#64 0#64 0).superpage = some 0x200000 ∧ (mk 0x11#64 0x10#64 0#64 0).superpage = none ∧
    ((mk 0x10#64 0#64 0#64 0).setCsD true).operandBits = 16 ∧ (mk 0x11#64 0#64 0#64 0).operandBits = 16 ∧
    ((mk 0x80000011#64 0x20#64 0x500#64 0).setCsD true).operandBits = 32 ∧
    ((mk 0x80000011#64 0x20#64 0x500#64 0).setCsL true).operandBits = 32 := by decide
/-- V30, V31: the top-level table's address, caching and write-through. -/
theorem test_tableBase :
    ((mk 0x80000011#64 0#64 0#64 0).setCr3 0x00ABC018#64).tableBase = 0x00ABC000#64 ∧
    ((mk 0x80000011#64 0x20#64 0#64 0).setCr3 0x00ABC7E8#64).tableBase = 0x00ABC7E0#64 ∧
    ((mk 0x80000011#64 0#64 0#64 0).setCr3 0x00100010#64).tablePolicy = .notCacheable ∧
    ((mk 0x80000011#64 0#64 0#64 0).setCr3 0xFFFFFFE0#64).tablePolicy = .writeback := by decide
/-- The interface: a table word runs as the first instruction after reset; with no program the run ends. -/
theorem test_withFetchWord :
    got (step (State.reset.withFetchWord 24 0x0F20C0)) (fun t => t.getGpr 0#4) = some 0x60000010#64 ∧
    stop (step State.reset) = some .endOfProgram := by decide

/-! ## Witnesses: states and operands that meet the hypotheses of the statements, clause by clause -/

theorem witness_MovFromControlRegister :
    (2#4, (mk 0x11#64 0#64 0#64 0).cr2) ∈ [(0#4, (mk 0x11#64 0#64 0#64 0).cr0),
      (2#4, (mk 0x11#64 0#64 0#64 0).cr2), (3#4, (mk 0x11#64 0#64 0#64 0).cr3),
      (4#4, (mk 0x11#64 0#64 0#64 0).cr4)] ∧
    (mk 0x11#64 0#64 0#64 0).cpl = 0 ∧ (mk 0x11#64 0#64 0#64 1).cpl ≠ 0 := by decide

/-- The hypotheses of `MovToCr0Completes`, as one term for its witnesses. -/
def cr0Ok (s : State) (v : Word) : Bool :=
  v == s.srcReg 3#4 && s.cpl == 0 && high32 v == 0#32 && (!v.getLsbD 31 || v.getLsbD 0) &&
    (!v.getLsbD 31 || s.pg || !s.lme || s.pae) && (v.getLsbD 31 || !s.pg || !s.mode64)

theorem witness_MovToCr0Completes :
    cr0Ok (src (mk 0x11#64 0x20#64 0x100#64 0) 0x80000011#64) 0x80000011#64 = true ∧
    cr0Ok (src (mk 0x80000011#64 0x20#64 0x500#64 0) 0x11#64) 0x11#64 = true := by decide

theorem witness_MovToCr0Stops :
    (mk 0x11#64 0#64 0#64 3).cpl ≠ 0 ∧
    high32 (((src (mk 0x80000011#64 0x20#64 0x500#64 0) 0x100000011#64).setCsL true).srcReg 3#4) ≠ 0#32 ∧
    (let s := src (mk 0x11#64 0#64 0x100#64 0) 0x80000010#64
     s.cpl = 0 ∧ high32 (s.srcReg 3#4) = 0#32 ∧ (s.srcReg 3#4).getLsbD 31 = true ∧
       (s.srcReg 3#4).getLsbD 0 = false) ∧
    (let s := src (mk 0x11#64 0#64 0x100#64 0) 0x80000011#64
     s.cpl = 0 ∧ (s.srcReg 3#4).getLsbD 0 = true ∧ s.pg = false ∧ s.lme = true ∧ s.pae = false) ∧
    (let s := (src (mk 0x80000011#64 0x20#64 0x500#64 0) 0x11#64).setCsL true
     (s.srcReg 3#4).getLsbD 31 = false ∧ s.pg = true ∧ s.mode64 = true) := by decide

theorem witness_MovToCr2 : (mk 0x11#64 0#64 0#64 0).cpl = 0 ∧ (mk 0x11#64 0#64 0#64 3).cpl ≠ 0 := by decide

theorem witness_MovToCr3Completes :
    (let s := src (mk 0x11#64 0#64 0#64 0) 0xFFFFF018#64
     s.cpl = 0 ∧ s.lma = false ∧ high32 (s.srcReg 3#4) = 0#32 ∧ (s.srcReg 3#4).extractLsb' 0 3 = 0#3 ∧
       s.pae = false ∧ (s.srcReg 3#4).extractLsb' 5 7 = 0#7) ∧
    (let s := src (mk 0x11#64 0x20#64 0#64 0) 0xFFFFFFF8#64
     (s.srcReg 3#4).extractLsb' 0 3 = 0#3 ∧ s.pae = true) := by decide

theorem witness_MovToCr3Stops :
    (mk 0x11#64 0#64 0#64 1).cpl ≠ 0 ∧ (mk 0x80000011#64 0x20#64 0x500#64 0).lma = true ∧
    (let s := src (mk 0x11#64 0x20#64 0#64 0) 0x1004#64
     s.lma = false ∧ (s.srcReg 3#4).extractLsb' 0 3 ≠ 0#3) ∧
    (let s := src (mk 0x11#64 0#64 0#64 0) 0x1020#64
     s.lma = false ∧ s.pae = false ∧ (s.srcReg 3#4).extractLsb' 5 7 ≠ 0#7) ∧
    (let s := (src (mk 0x11#64 0#64 0x400#64 0) 0x100000000#64).setCsL true
     high32 (s.srcReg 3#4) ≠ 0#32) := by decide

/-- A write that keeps PAE in long mode, and one that clears it under a CR3 with bits 11:5. -/
theorem witness_MovToCr4Completes :
    (let s := src (mk 0x80000011#64 0x20#64 0x500#64 0) 0x407FF#64
     s.cpl = 0 ∧ s.srcReg 3#4 &&& ~~~0x000407FF#64 = 0#64 ∧ (s.srcReg 3#4).getLsbD 18 = true ∧
       s.params.hasXsave = true ∧ s.lma = true ∧ (s.srcReg 3#4).getLsbD 5 = true) ∧
    (let s := (src (mk 0x11#64 0x20#64 0#64 0) 0#64).setCr3 0xFE0#64
     s.cpl = 0 ∧ s.lma = false ∧ (s.srcReg 3#4).getLsbD 5 = false ∧ s.cr3.getLsbD 5 = true ∧
       s.cr3.getLsbD 11 = true) := by decide

theorem witness_MovToCr4Stops :
    (mk 0x11#64 0#64 0#64 3).cpl ≠ 0 ∧
    (src (mk 0x11#64 0#64 0#64 0) 0x800#64).srcReg 3#4 &&& ~~~0x000407FF#64 ≠ 0#64 ∧
    (let s := src { mk 0x11#64 0#64 0#64 0 with params := bare } 0x40000#64
     s.srcReg 3#4 &&& ~~~0x000407FF#64 = 0#64 ∧ (s.srcReg 3#4).getLsbD 18 = true ∧
       s.params.hasXsave = false) ∧
    (let s := src (mk 0x80000011#64 0x20#64 0x500#64 0) 0x40000#64
     s.srcReg 3#4 &&& ~~~0x000407FF#64 = 0#64 ∧ s.params.hasXsave = true ∧ s.lma = true ∧
       (s.srcReg 3#4).getLsbD 5 = false) := by decide

theorem witness_OtherControlRegistersStop :
    (5#4 : BitVec 4).toNat = 5 ∧ (7#4 : BitVec 4).toNat = 7 ∧ 8 ≤ (8#4 : BitVec 4).toNat := by decide

theorem witness_RdmsrReadsEfer :
    (withMsr (mk 0x11#64 0#64 0#64 0) 0#64).reg32 1#4 = 0xC0000080#32 ∧
    (withMsr (mk 0x11#64 0#64 0#64 3) 0#64).cpl ≠ 0 ∧
    (mk 0x11#64 0#64 0#64 0).reg32 1#4 ≠ 0xC0000080#32 := by decide

/-- The hypotheses of `WrmsrWritesEfer` on `s`, whose EDX:EAX is the value, as one term. -/
def eferOk (s : State) : Bool :=
  s.reg32 1#4 == 0xC0000080#32 && s.cpl == 0 && s.edxEax &&& ~~~0x00007D01#64 == 0#64 &&
    s.edxEax.getLsbD 10 == s.lma && (!s.pg || s.edxEax.getLsbD 8 == s.lme) && !s.eferFeatureAbsent s.edxEax &&
    (s.edxEax.getLsbD 12 || !s.svme || !s.guestRunning)

theorem witness_WrmsrWritesEfer :
    eferOk (withMsr (mk 0x80000011#64 0x20#64 0x500#64 0) 0x7D01#64) = true ∧
    eferOk (withMsr (mk 0x11#64 0#64 0x1000#64 0) 0x100#64) = true := by decide

theorem witness_WrmsrRefusals :
    (withMsr (mk 0x11#64 0#64 0#64 0) 0x8000#64).edxEax &&& ~~~0x00007D01#64 ≠ 0#64 ∧
    (withMsr (mk 0x11#64 0#64 0#64 0) 0x400#64).edxEax.getLsbD 10 ≠ (mk 0x11#64 0#64 0#64 0).lma ∧
    (let s := withMsr { mk 0x11#64 0#64 0#64 0 with params := bare } 0x100#64
     s.edxEax.getLsbD 10 = s.lma ∧ s.pg = false ∧ s.edxEax.getLsbD 8 = true ∧ s.params.arch = .x86_32) ∧
    (let s := withMsr { mk 0x11#64 0#64 0#64 0 with vmCr := ⟨false, true⟩ } 0x1000#64
     s.edxEax.getLsbD 12 = true ∧ s.params.hasSvm = true ∧ s.vmCr.svmeDisable = true) ∧
    (let s := (withMsr (mk 0x11#64 0#64 0x1000#64 0) 0#64).setGuestRunning true
     s.eferFeatureAbsent s.edxEax = false ∧ s.edxEax.getLsbD 12 = false ∧ s.svme = true ∧
       s.guestRunning = true) := by decide

theorem witness_WrmsrFaults :
    (let s := withMsr (mk 0x80000011#64 0x20#64 0x500#64 0) 0x400#64
     s.reg32 1#4 = 0xC0000080#32 ∧ s.cpl = 0 ∧ s.edxEax &&& ~~~0x00007D01#64 = 0#64 ∧
       s.edxEax.getLsbD 10 = s.lma ∧ s.pg = true ∧ s.edxEax.getLsbD 8 ≠ s.lme) ∧
    (withMsr (mk 0x11#64 0#64 0#64 1) 0#64).cpl ≠ 0 := by decide

/-- Paging on, and a step that completes. -/
theorem witness_LmeFixedWhilePaging :
    got (step { mk 0x80000011#64 0#64 0#64 0 with code := [0xFA#8] }) (fun t => t.pg) = some true := by decide

/-- A state of the vectors' conventions with paging off satisfies the invariants. -/
theorem mk_inv : State.Inv (mk 0x11#64 0x20#64 0#64 0) := by
  constructor <;> decide

theorem witness_LongModeActivation :
    State.Inv (withMsr (mk 0x11#64 0x20#64 0#64 0) 0x100#64) ∧
    (let s := withMsr (mk 0x11#64 0x20#64 0#64 0) 0x100#64
     s.cpl = 0 ∧ s.pg = false ∧ s.pae = true ∧ s.params.arch = .x86_64 ∧ s.reg32 1#4 = 0xC0000080#32 ∧
       s.reg32 2#4 = 0#32 ∧ s.reg32 0#4 = low32 s.efer ||| 0x100#32) ∧
    (let t := (src (withMsr (mk 0x11#64 0x20#64 0#64 0) 0x100#64) 0x80000011#64).setEfer 0x100#64
     high32 (t.srcReg 3#4) = 0#32 ∧ (t.srcReg 3#4).getLsbD 31 = true ∧ (t.srcReg 3#4).getLsbD 0 = true ∧
       t.csL = false) := by
  refine ⟨?_, by decide, by decide⟩
  constructor <;> decide

theorem witness_CliCompletes :
    (mkFlags 0#64 3 3#2 true false false false).cpl.val ≤ (3#2 : BitVec 2).toNat ∧
    (mk 0x10#64 0#64 0#64 3).pe = false ∧ (mk 0x10#64 0#64 0#64 3).rflags.vm = false ∧
    (let s := mkFlags 2#64 3 2#2 true true false false
     s.rflags.vm = false ∧ s.pe = true ∧ s.rflags.iopl.toNat < s.cpl.val ∧ s.pvi = true ∧ s.cpl = 3 ∧
       s.rflags.vip = false) := by decide

theorem witness_StiCompletes :
    (mkFlags 0#64 2 2#2 false false true false).rflags.vm = false ∧
    (mkFlags 0#64 2 2#2 false false true false).cpl.val ≤ (2#2 : BitVec 2).toNat ∧
    (let s := mkFlags 2#64 3 2#2 false false false false
     s.pe = true ∧ s.rflags.iopl.toNat < s.cpl.val ∧ s.pvi = true ∧ s.cpl = 3 ∧ s.rflags.vip = false) := by
  decide

theorem witness_CliStiFaults :
    (let s := mkFlags 2#64 2 1#2 true true false false
     s.rflags.vm = false ∧ s.pe = true ∧ s.rflags.iopl.toNat < s.cpl.val ∧ ¬ (s.pvi = true ∧ s.cpl = 3)) ∧
    (let s := mkFlags 2#64 3 2#2 true true true false
     s.rflags.iopl.toNat < s.cpl.val ∧ s.pvi = true ∧ s.cpl = 3 ∧ s.rflags.vip = true) := by decide

theorem witness_IntPermitted : (mkFlags 2#64 3 0#2 true true false false).rflags.vm = false := by decide

theorem witness_Virtual8086Refused : (mkFlags 1#64 3 0#2 true true false true).rflags.vm = true ∧
    (∀ m n r, Instr.invlpga ≠ .movRCr m n r ∧ Instr.invlpga ≠ .movCrR m n r) := by
  refine ⟨by decide, fun m n r => ⟨nofun, nofun⟩⟩

/-- Every state of the vectors' conventions is outside virtual-8086 mode, as the statements about the gates ask. -/
theorem mk_not_vm (cr0 cr4 efer : Word) (cpl : Fin 4) : (mk cr0 cr4 efer cpl).rflags.vm = false := rfl

theorem witness_RdtscAndRdtscpComplete :
    (mk 0x11#64 0#64 0#64 3).tsd = false ∧ (mk 0x10#64 4#64 0#64 3).gateCpl = 0 ∧
    (mk 0x11#64 4#64 0#64 1).tsd = true ∧ (mk 0x11#64 4#64 0#64 1).gateCpl ≠ 0 := by decide

theorem witness_TsdRestrictsTimeStampCounter :
    (mk 0x11#64 0xFFFFFFFFFFFFFFFB#64 0#64 3).cr4.getLsbD 2 = false ∧
    (mk 0x11#64 4#64 0#64 3).cr4.getLsbD 2 = true := by decide

theorem witness_RdpmcCompletes :
    (mk 0x11#64 0x100#64 0#64 3).pce = true ∧ (mk 0x10#64 0#64 0#64 3).gateCpl = 0 ∧
    (mk 0x11#64 0#64 0#64 1).pce = false ∧ (mk 0x11#64 0#64 0#64 1).gateCpl ≠ 0 := by decide

theorem witness_PceOpensPerformanceCounters :
    (mk 0x11#64 0x100#64 0#64 3).cr4.getLsbD 8 = true ∧ (mk 0x11#64 0#64 0#64 3).cr4.getLsbD 8 = false := by
  decide

/-- Numbers 4 and 5 while DE = 0, 6 and 7 while DE = 1, in and out of 64-bit mode, at CPL 3. -/
theorem witness_DebugRegisterMoves :
    (let s := src ((mk 0x11#64 0#64 0#64 3).setDr6 0x1_00000006#64) 0x2_00000009#64
     s.rflags.vm = false ∧ s.de = false ∧ s.mode64 = false ∧
     got (exec (.movRDr 3#2 4#4 0#4) s) (fun t => t.getGpr 0#4) = some 6#64 ∧
     got (exec (.movDrR 3#2 5#4 3#4) s) (fun t => (t.dr6, t.dr7)) = some (0x1_00000006#64, 9#64)) ∧
    (let s := src (((mk 0x80000011#64 8#64 0x500#64 3).setCsL true).setDr7 0x1_00000007#64) 0x2_00000009#64
     s.rflags.vm = false ∧ s.de = true ∧ s.mode64 = true ∧
     got (exec (.movRDr 3#2 7#4 0#4) s) (fun t => t.getGpr 0#4) = some 0x1_00000007#64 ∧
     got (exec (.movDrR 3#2 6#4 3#4) s) (fun t => (t.dr6, t.dr7)) =
       some (0x2_00000009#64, 0x1_00000007#64)) := by decide

theorem witness_DebugRegisterStops :
    (mk 0x11#64 8#64 0#64 0).de = true ∧ (mk 0x11#64 8#64 0#64 0).gateCpl = 0 ∧
    (mk 0x11#64 8#64 0#64 1).gateCpl ≠ 0 ∧ (3#4 : BitVec 4).toNat ≤ 3 ∧ 8 ≤ (8#4 : BitVec 4).toNat := by decide

/-- Clauses of FXSAVE, FXRSTOR and FFXSR: the fast form, and each way out of it. -/
theorem witness_FxClauses :
    (let s := (mk 0x80000011#64 0x220#64 0x4500#64 0).setCsL true
     s.osfxsr = true ∧ s.ffxsr = true ∧ s.mode64 = true ∧ s.gateCpl = 0) ∧
    (let s := (mk 0x80000011#64 0x220#64 0x4500#64 1).setCsL true
     s.osfxsr = true ∧ ¬ (s.ffxsr = true ∧ s.mode64 = true ∧ s.gateCpl = 0)) ∧
    (mk 0x11#64 0x200#64 0x4000#64 0).osfxsr = true ∧ (mk 0x11#64 0#64 0#64 0).osfxsr = false := by decide

/-- Clauses of OSFXSR: the bit clear, set, and set with FFXSR clear, outside virtual-8086 mode. -/
theorem witness_OsfxsrEnablesMediaInstructions :
    (mk 0x11#64 0#64 0#64 0).cr4.getLsbD 9 = false ∧ (mk 0x11#64 0x200#64 0#64 0).cr4.getLsbD 9 = true ∧
    (mk 0x11#64 0x200#64 0#64 0).ffxsr = false ∧ (mk 0x11#64 0x200#64 0#64 0).rflags.vm = false := by decide

/-- An address above the physical space is no byte of any image, so it meets the hypothesis of the memory clause. -/
theorem witness_FxsaveCompletes (s : State) (op : MemOperand) :
    ∀ i < Config.fxImageBytes, s.imageAddress op i ≠ 2 ^ 64 := by
  intro i _ e
  have h := (s.translate (s.dataLinear (s.memAddress op + BitVec.ofNat 64 i))).isLt
  exact absurd e (Nat.ne_of_lt h)

theorem witness_MediaErrors :
    (mk 0x11#64 0x600#64 0#64 0).cr4.getLsbD 10 = true ∧ (mk 0x11#64 0x200#64 0#64 0).cr4.getLsbD 10 = false ∧
    (mk 0x11#64 0x200#64 0#64 0).params.xf256 = .refuse ∧ (mk 0x11#64 0x200#64 0#64 0).osxmmexcpt = false ∧
    ({ mk 0x11#64 0x200#64 0#64 0 with params := { full with xf256 := .invalidOpcode } }).params.xf256 =
      .invalidOpcode := by decide

theorem witness_XsaveFamily :
    (mk 0x11#64 0x40000#64 0#64 0).osxsave = true ∧ (mk 0x11#64 0x40000#64 0#64 0).gateCpl = 0 ∧
    (mk 0x11#64 0x40000#64 0#64 1).gateCpl ≠ 0 ∧ (mk 0x11#64 0#64 0#64 0).osxsave = false ∧
    ((mk 0x11#64 0x40000#64 0#64 0).setGpr 1#4 1#64).reg32 1#4 ≠ 0#32 := by decide

/-- Two operands with one image, and memory the image is read from: all of it, since it lists nothing, reads 0. -/
theorem witness_XrstorOperands (op q : MemOperand) :
    ∀ i < Config.xsaveBytes (mk 0x11#64 0x40000#64 0#64 0).xcr0 (mk 0x11#64 0x40000#64 0#64 0).edxEax,
      memRead (mk 0x11#64 0x40000#64 0#64 0).mem ((mk 0x11#64 0x40000#64 0#64 0).imageAddress q i) =
        memRead (mk 0x11#64 0x40000#64 0#64 0).mem ((mk 0x11#64 0x40000#64 0#64 0).imageAddress op i) :=
  fun _ _ => rfl

theorem witness_SyscallAndSysret :
    (mk 0x11#64 0#64 1#64 0).sce = true ∧ (mk 0x11#64 0#64 1#64 0).gateCpl = 0 ∧
    (mk 0x11#64 0#64 1#64 1).gateCpl ≠ 0 ∧ (mk 0x11#64 0#64 0#64 0).sce = false := by decide

theorem witness_SvmGate :
    (mk 0x11#64 0#64 0x1000#64 3).svme = true ∧ (mk 0x11#64 0#64 0#64 3).svme = false := by decide

/-- A WRMSR that completes with VM_CR.SVME_DISABLE set. -/
theorem witness_SvmeEnablesSvm :
    got (exec .wrmsr (withMsr { mk 0x11#64 0#64 0#64 0 with vmCr := ⟨false, true⟩ } 1#64))
      (fun t => t.efer) = some 1#64 := by decide

theorem witness_CpuidCompletes :
    ((mk 0x11#64 0#64 0#64 3).setGpr 0#4 0x80000001#64).reg32 0#4 = 0x80000001#32 := by decide

theorem witness_PageFaultLoadsCr2 :
    (let s := { mk 0x80000011#64 0#64 0#64 0 with schedule := [.event (.pageFault 1#64)] }
     s.raised = none ∧ s.schedule = .event (.pageFault 1#64) :: [] ∧ s.pg = true) ∧
    (mk 0x11#64 0#64 0#64 0).pg = false ∧
    (let s := { mk 0x80000011#64 0#64 0#64 0 with
      params := bare, schedule := [.event (.pageFault 0x10804A123#64)] }
     got (step s) (fun t => t.cr2) = some 0x0804A123#64) := by decide

theorem witness_MachineCheckErrors :
    (mk 0x11#64 0x40#64 0#64 0).mce = true ∧ (mk 0x11#64 0#64 0#64 0).mce = false ∧
    storeWf bankDefault (mk 0x11#64 0#64 0#64 0).mcBanks = true ∧
    (let s := { mk 0x11#64 0x40#64 0#64 0 with schedule := [.event (.machineCheck 0 1 true)] }
     s.raised = none ∧ s.schedule = .event (.machineCheck 0 1 true) :: [] ∧ s.mce = true) := by decide

/-- Each input as the next turn, with a step that answers; the modes the clauses tell apart. -/
theorem witness_InputsWriteTheirField :
    got (step { mk 0x80000011#64 0x20#64 0x500#64 0 with schedule := [.event (.inputCsL true)] })
      (fun t => (t.mode64, t.schedule)) = some (true, []) ∧
    got (step { mk 0x11#64 0#64 0#64 0 with schedule := [.event (.inputCsD true)] })
      (fun t => (t.pe, t.mode64, t.operandBits)) = some (true, false, 32) ∧
    got (step { mk 0x10#64 0#64 0#64 0 with schedule := [.event (.inputCsD true)] })
      (fun t => (t.pe, t.operandBits)) = some (false, 16) ∧
    got (step { (mk 0x80000011#64 0x20#64 0x500#64 0).setCsL true with schedule := [.event (.inputCsD false)] })
      (fun t => (t.mode64, t.operandBits)) = some (true, 32) ∧
    got (step { mk 0x11#64 0#64 0#64 0 with schedule := [.event (.inputGuestRunning true)] })
      (fun t => t.guestRunning) = some true := by decide

theorem witness_TopLevelTable :
    (let s := mk 0x80000011#64 0#64 0#64 0; s.pg = true ∧ s.lma = false ∧ s.pae = false) ∧
    (let s := mk 0x80000011#64 0x20#64 0#64 0; s.pg = true ∧ s.lma = false ∧ s.pae = true) ∧
    (mk 0x11#64 0#64 0#64 0).pg = false ∧ (mk 0x80000011#64 0x20#64 0x500#64 0).lma = true ∧
    (let s := mk 0x80000011#64 0#64 0#64 0
     (∀ k < 64, k ≠ 3 → k ≠ 4 → (0x18#64).getLsbD k = s.cr3.getLsbD k) ∧
     (∀ k < 64, k ≠ 13 → (0x2000#64).getLsbD k = s.efer.getLsbD k) ∧
     (∀ k < 64, k = 0 ∨ k = 4 ∨ 31 ≤ k → (0xE0000033#64).getLsbD k = s.cr0.getLsbD k)) := by decide

/-- A step that writes CR0 and leaves its bit 4 and the redirection bitmap. -/
theorem witness_UnwrittenState :
    got (step { src (mk 0x11#64 0#64 0#64 0) 1#64 with code := [0x0F#8, 0x22#8, 0xC3#8], redirect := 5#256 })
      (fun t => (t.cr0, t.redirect)) = some (0x11#64, 5#256) := by decide

/-- With no bytes left an event listed first is taken, and a turn of the processor listed first ends the run (log
entry 23). -/
theorem test_end_with_turns :
    got (step { mk 0x11#64 0#64 0#64 0 with schedule := [.event (.inputCsL true)] }) (fun t => t.csL) = some true ∧
    stop (step { mk 0x11#64 0#64 0#64 0 with schedule := [.processor, .event (.inputCsL true)] }) =
      some .endOfProgram := by decide

/-- Steps that answer above CPL 0: an instruction, and a page fault. -/
theorem witness_UserCannotChangeSystemRegisters :
    got (step { mk 0x80000011#64 0#64 0#64 3 with code := [0xCD#8, 3#8] }) (fun t => t.cpl) = some 3 ∧
    got (step { mk 0x80000011#64 0#64 0#64 3 with schedule := [.event (.pageFault 1#64)] }) (fun t => t.cr2) =
      some 1#64 := by decide

/-- A step that answers, from a state with LMA = LME and PG: long mode switched on. -/
theorem witness_LmaFollowsLmeAndPg :
    (let s := { src (mk 0x11#64 0x20#64 0x100#64 0) 0x80000011#64 with code := [0x0F#8, 0x22#8, 0xC3#8] }
     s.lma = (s.lme && s.pg) ∧ got (step s) (fun t => (t.lma, t.lme, t.pg)) = some (true, true, true)) := by
  decide

/-- A state that meets the invariants, a step that answers from it, in either variant. -/
theorem witness_StepKeepsInvariants :
    State.Inv { mk 0x11#64 0x20#64 0#64 0 with code := [0xFA#8] } ∧
    State.Inv { mk 0x11#64 0#64 0#64 0 with params := bare, code := [0xFA#8] } ∧
    got (step { mk 0x11#64 0x20#64 0#64 0 with code := [0xFA#8] }) (fun t => t.rflags.ifl) = some false ∧
    got (step { mk 0x11#64 0#64 0#64 0 with params := bare, code := [0xFA#8] }) (fun t => t.rflags.ifl) =
      some false := by
  refine ⟨?_, ?_, by decide, by decide⟩
  · constructor <;> decide
  · constructor <;> decide

theorem witness_DecodeOfEncode :
    (Instr.xsave ⟨.a64, some .gs, some 1#4, 2#2, 4#3, some 0x24#8, [0#8, 0#8, 0#8, 1#8]⟩).wf = true ∧
    (Instr.xsave ⟨.a64, some .gs, some 1#4, 2#2, 4#3, some 0x24#8, [0#8, 0#8, 0#8, 1#8]⟩).fits .c64 = true ∧
    (Instr.movCrR 1#2 4#4 15#4).fits .c64 = true ∧
    dec .c64 (encode .c64 (.movCrR 1#2 4#4 15#4)) = some (.movCrR 1#2 4#4 15#4, []) ∧
    (Instr.fxsave atEax).fits .c16 = true ∧
    encode .c16 (.fxsave atEax) = [0x67#8, 0x0F#8, 0xAE#8, 0x00#8] := by decide

/-- LOCK at 15 bytes and beyond; before MOV CR0,r which of the two it is stays free. -/
theorem witness_IllegalEncodings :
    (0xE8#8).extractLsb' 6 2 = 3#2 ∧ (Instr.cli).wf = true ∧
    (Instr.cli).fits (mk 0x11#64 0#64 0#64 0).codeSize = true ∧
    1 + 13 + (encode (mk 0x11#64 0#64 0#64 0).codeSize .cli).length ≤ 15 ∧
    15 < 1 + 14 + (encode (mk 0x11#64 0#64 0#64 0).codeSize .cli).length ∧
    (Instr.movCrR 3#2 0#4 0#4).fits (mk 0x11#64 0#64 0#64 0).codeSize = true ∧
    stop (step { mk 0x11#64 0#64 0#64 0 with code := [0xF0#8, 0xFA#8] }) = some .invalidOpcode := by decide

theorem witness_StepRunsDecoded :
    dec (mk 0x11#64 0#64 0#64 0).codeSize [0xFB#8, 0x90#8] = some (.sti, [0x90#8]) ∧
    got (step { mk 0x11#64 0#64 0#64 0 with code := [0xFB#8, 0x90#8], schedule := [.processor] })
      (fun t => (t.rflags.ifl, t.code, t.schedule)) = some (true, [0x90#8], []) := by decide

theorem witness_RunEnds :
    State.reset.raised = none ∧ State.reset.schedule = [] ∧ State.reset.code = [] ∧
    (State.reset.setRaised (some .machineCheck)).raised = some .machineCheck := by decide

/-- Reset memory is in its canonical form, and a write and its undoing keep it. -/
theorem test_memory :
    Memory.wf State.reset.mem = true ∧ memWrite [] 5 7#8 = [(5, 7#8)] ∧ memWrite [(5, 7#8)] 5 0#8 = [] ∧
    memRead (memWrite [(5, 7#8)] 3 1#8) 5 = 7#8 ∧ Memory.wf [(5, 1#8), (3, 1#8)] = false := by decide

end Sys2Proof.Tests
end

/-! Whole-machine rules: what no instruction and no event writes, no step writes; and CPL is such a field
(10_state.md R52). -/

namespace Sys2Proof.Machine

/-! A part of the state that every step keeps. -/

section
variable {α : Type} {f : State → α}

/-- The processor's turn keeps what every instruction keeps and fetching does not touch. -/
theorem runInstruction_keeps (hcode : ∀ s v, f (s.setCode v) = f s)
    (hexec : ∀ i s t, exec i s = .next t → f t = f s) {s t : State} (h : runInstruction s = .next t) :
    f t = f s := by
  obtain ⟨i, rest, -, he⟩ := runInstruction_eq_next h
  exact (hexec i _ t he).trans (hcode s rest)

/-- A step keeps what every instruction and every event keeps and neither fetching nor the schedule touches. -/
theorem step_keeps (hcode : ∀ s v, f (s.setCode v) = f s) (hsched : ∀ s v, f (s.setSchedule v) = f s)
    (hexec : ∀ i s t, exec i s = .next t → f t = f s)
    (hevent : ∀ e s t, takeEvent e s = .next t → f t = f s) {s t : State} (h : step s = .next t) :
    f t = f s := by
  obtain ⟨-, ⟨-, hrun⟩ | ⟨x, xs, -, hturn⟩⟩ := step_eq_next h
  · exact runInstruction_keeps hcode hexec hrun
  · refine Eq.trans ?_ (hsched s xs)
    cases x with
    | processor => exact runInstruction_keeps hcode hexec hturn
    | event e => exact hevent e _ t hturn

end

/-! CPL under the composed updates. -/

@[simp] theorem State.setReg32_cpl (s : State) (r : BitVec 4) (v : BitVec 32) : (s.setReg32 r v).cpl = s.cpl := rfl

@[simp] theorem State.setEdxEax_cpl (s : State) (v : Word) : (s.setEdxEax v).cpl = s.cpl := rfl

@[simp] theorem State.dstReg_cpl (s : State) (r : BitVec 4) (v : Word) : (s.dstReg r v).cpl = s.cpl := rfl

@[simp] theorem State.afterCr0_cpl (s : State) (v : Word) : (s.afterCr0 v).cpl = s.cpl := rfl

@[simp] theorem State.recordError_cpl (s : State) (bank : Nat) (error : Content) :
    (s.recordError bank error).cpl = s.cpl := by
  obtain e | ⟨b, e⟩ := s.recordError_eq bank error <;> simp [e]

/-! CPL under the operations. -/

theorem writeCr_keeps_cpl {n : Nat} {v : Word} {s t : State} (h : writeCr n v s = .next t) : t.cpl = s.cpl := by
  obtain ⟨-, h0⟩ | ⟨-, -, rfl⟩ | ⟨-, h3⟩ | ⟨-, h4⟩ := writeCr_eq_next h
  · obtain ⟨-, -, -, -, -, rfl⟩ := writeCr0_eq_next h0
    simp
  · simp
  · obtain ⟨-, -, -, -, -, rfl⟩ := writeCr3_eq_next h3
    simp
  · obtain ⟨-, -, -, -, rfl⟩ := writeCr4_eq_next h4
    simp

/-- No instruction writes CPL: each leaves a state made by updates of other fields. -/
theorem exec_keeps_cpl (i : Instr) (s t : State) (h : exec i s = .next t) : t.cpl = s.cpl := by
  cases i with
  | movRCr m n r => obtain ⟨-, v, rfl, -⟩ := execMovRCr_eq_next (m := m) h; simp
  | movCrR m n r =>
    obtain ⟨u, hu, rfl⟩ := execMovCrR_eq_next (m := m) h
    simpa using writeCr_keeps_cpl hu
  | rdmsr => simp [(execRdmsr_eq_next h).2]
  | wrmsr => simp [(execWrmsr_eq_next h).2]
  | cli => obtain rfl | rfl := execCli_eq_next h <;> simp
  | sti => obtain rfl | rfl := execSti_eq_next h <;> simp
  | int i => simp [execInt_eq_next (i := i) h]
  | rdtsc => obtain ⟨v, rfl⟩ := execRdtsc_eq_next h; simp
  | rdtscp => obtain ⟨v, c, rfl⟩ := execRdtscp_eq_next h; simp
  | movRDr m n r => obtain ⟨v, rfl, -⟩ := execMovRDr_eq_next (m := m) h; simp
  | movDrR m n r => obtain rfl | rfl := execMovDrR_eq_next (m := m) h <;> simp
  | rdpmc => obtain ⟨v, rfl⟩ := execRdpmc_eq_next h; simp
  | fxsave op => simp [execFxsave_eq_next h]
  | fxrstor op => simp [execFxrstor_eq_next h]
  | xgetbv => obtain ⟨v, rfl⟩ := execXgetbv_eq_next h; simp
  | xsetbv => simp [(execXsetbv_eq_next h).2]
  | xsave op => obtain ⟨f, n, rfl⟩ := execXsave_eq_next h; simp
  | xrstor op => simp [execXrstor_eq_next h]
  | syscall => simp [(execSyscall_eq_next h).2]
  | sysret => simp [(execSysret_eq_next h).2.2]
  | vmrun | vmmcall | vmload | vmsave | stgi | clgi | skinit | invlpga => simp [svm_eq_next h]
  | cpuid => obtain ⟨a, b, c, d, rfl⟩ := execCpuid_eq_next h; simp

/-- No event writes CPL. -/
theorem takeEvent_keeps_cpl (e : Event) (s t : State) (h : takeEvent e s = .next t) : t.cpl = s.cpl := by
  cases e with
  | pageFault linear => simp [(takePageFault_eq_next h).2]
  | machineCheck bank error u =>
    obtain ⟨-, rfl⟩ | ⟨-, -, rfl⟩ := takeMachineCheck_eq_next h <;> simp
  | tlbFill linear physical g => obtain ⟨-, rfl⟩ | ⟨-, rfl⟩ := takeTlbFill_eq_next h <;> simp
  | tlbDrop entry => cases h; simp
  | mediaInsn w => simp [(takeMediaInsn_eq_next (w := w) h).2]
  | mediaFpError w => exact absurd h takeMediaFpError_ne_next
  | ifInsn => simp [permit_eq_next (outsideVirtual8086_eq_next h).2]
  | inputCsL b | inputCsD b | inputGuestRunning b => cases h; simp

/-- Settles O46: neither fetching, the schedule, an instruction nor an event writes CPL. -/
theorem cplNeverWritten : Obligations.CplNeverWritten :=
  fun _ _ h => step_keeps State.setCode_cpl State.setSchedule_cpl exec_keeps_cpl takeEvent_keeps_cpl h

end Sys2Proof.Machine

/-! EFER.LME under every step: only MOV CRn,r and WRMSR reach the control registers and EFER, and neither changes LME
while paging is on (70_reset_and_hazards.md R224). -/

namespace Sys2Proof.Machine

/-! What an instruction changes besides the control registers and EFER. -/

/-- A part of the state apart from everything that instructions other than MOV CRn,r and WRMSR write: general, debug and
media registers, counters, XCR0, IF and VIF, memory, and the model's answer and draw counter. -/
structure ControlPart {α : Type} (f : State → α) : Prop where
  setGpr : ∀ s r v, f (State.setGpr s r v) = f s
  setIf : ∀ s b, f (State.setIf s b) = f s
  setVif : ∀ s b, f (State.setVif s b) = f s
  setDr6 : ∀ s v, f (State.setDr6 s v) = f s
  setDr7 : ∀ s v, f (State.setDr7 s v) = f s
  setTsc : ∀ s v, f (State.setTsc s v) = f s
  setPerf : ∀ s v, f (State.setPerf s v) = f s
  setXcr0 : ∀ s v, f (State.setXcr0 s v) = f s
  setMedia : ∀ s v, f (State.setMedia s v) = f s
  setMem : ∀ s v, f (State.setMem s v) = f s
  setAnswer : ∀ s a, f (State.setAnswer s a) = f s
  setDraws : ∀ s k, f (State.setDraws s k) = f s

section
variable {α : Type} {f : State → α} (hf : ControlPart f)
include hf

theorem ControlPart.setReg32 (s : State) (r : BitVec 4) (v : BitVec 32) : f (s.setReg32 r v) = f s :=
  hf.setGpr s r _

theorem ControlPart.setEdxEax (s : State) (v : Word) : f (s.setEdxEax v) = f s :=
  (hf.setReg32 _ _ _).trans (hf.setReg32 _ _ _)

theorem ControlPart.dstReg (s : State) (r : BitVec 4) (v : Word) : f (s.dstReg r v) = f s :=
  hf.setGpr s r _

/-- An instruction that answers keeps such a part, or is a control-register write or WRMSR. -/
theorem ControlPart.exec_keeps {i : Instr} {s t : State} (h : exec i s = .next t) :
    f t = f s ∨ (∃ m n r, i = .movCrR m n r) ∨ i = .wrmsr := by
  cases i with
  | movCrR m n r => exact .inr (.inl ⟨m, n, r, rfl⟩)
  | wrmsr => exact .inr (.inr rfl)
  | movRCr m n r =>
    obtain ⟨-, v, rfl, -⟩ := execMovRCr_eq_next (m := m) h
    simp [hf.setAnswer, hf.dstReg]
  | rdmsr => simp [(execRdmsr_eq_next h).2, hf.setAnswer, hf.setEdxEax]
  | cli => obtain rfl | rfl := execCli_eq_next h <;> simp [hf.setAnswer, hf.setIf, hf.setVif]
  | sti => obtain rfl | rfl := execSti_eq_next h <;> simp [hf.setAnswer, hf.setIf, hf.setVif]
  | int i => simp [execInt_eq_next (i := i) h, hf.setAnswer]
  | rdtsc =>
    obtain ⟨v, rfl⟩ := execRdtsc_eq_next h
    simp [hf.setAnswer, hf.setDraws, hf.setEdxEax, hf.setTsc]
  | rdtscp =>
    obtain ⟨v, c, rfl⟩ := execRdtscp_eq_next h
    simp [hf.setAnswer, hf.setDraws, hf.setReg32, hf.setEdxEax, hf.setTsc]
  | movRDr m n r =>
    obtain ⟨v, rfl, -⟩ := execMovRDr_eq_next (m := m) h
    simp [hf.setAnswer, hf.dstReg]
  | movDrR m n r =>
    obtain rfl | rfl := execMovDrR_eq_next (m := m) h <;> simp [hf.setAnswer, hf.setDr6, hf.setDr7]
  | rdpmc =>
    obtain ⟨v, rfl⟩ := execRdpmc_eq_next h
    simp [hf.setAnswer, hf.setDraws, hf.setEdxEax, hf.setPerf]
  | fxsave op => simp [execFxsave_eq_next h, hf.setAnswer, hf.setDraws, hf.setMem]
  | fxrstor op => simp [execFxrstor_eq_next h, hf.setAnswer, hf.setDraws, hf.setMedia]
  | xgetbv =>
    obtain ⟨v, rfl⟩ := execXgetbv_eq_next h
    simp [hf.setAnswer, hf.setDraws, hf.setEdxEax]
  | xsetbv => simp [(execXsetbv_eq_next h).2, hf.setAnswer, hf.setDraws, hf.setXcr0]
  | xsave op =>
    obtain ⟨g, n, rfl⟩ := execXsave_eq_next h
    simp [hf.setAnswer, hf.setDraws, hf.setMem]
  | xrstor op => simp [execXrstor_eq_next h, hf.setAnswer, hf.setDraws, hf.setMedia]
  | syscall => simp [(execSyscall_eq_next h).2, hf.setAnswer]
  | sysret => simp [(execSysret_eq_next h).2.2, hf.setAnswer]
  | vmrun | vmmcall | vmload | vmsave | stgi | clgi | skinit | invlpga => simp [svm_eq_next h, hf.setAnswer]
  | cpuid =>
    obtain ⟨a, b, c, d, rfl⟩ := execCpuid_eq_next h
    simp [hf.setAnswer, hf.setReg32]

end

theorem controlPart_efer : ControlPart State.efer := by constructor <;> intros <;> rfl

/-! What a step does: it takes one instruction or one event, from a state that differs in code and schedule alone. -/

theorem step_eq_exec_or_takeEvent {s t : State} (h : step s = .next t) :
    ∃ turns rest, (∃ i, exec i ((s.setSchedule turns).setCode rest) = .next t) ∨
      ∃ e, takeEvent e ((s.setSchedule turns).setCode rest) = .next t := by
  obtain ⟨-, ⟨-, hrun⟩ | ⟨x, xs, -, hturn⟩⟩ := step_eq_next h
  · obtain ⟨i, rest, -, he⟩ := runInstruction_eq_next hrun
    exact ⟨s.schedule, rest, .inl ⟨i, he⟩⟩
  · cases x with
    | processor =>
      obtain ⟨i, rest, -, he⟩ := runInstruction_eq_next hturn
      exact ⟨xs, rest, .inl ⟨i, he⟩⟩
    | event e => exact ⟨xs, s.code, .inr ⟨e, hturn⟩⟩

/-! EFER and LME under the operations. -/

@[simp] theorem State.recordError_efer (s : State) (bank : Nat) (error : Content) :
    (s.recordError bank error).efer = s.efer := by
  obtain e | ⟨b, e⟩ := s.recordError_eq bank error <;> simp [e]

/-- No event writes EFER. -/
theorem takeEvent_keeps_efer {e : Event} {s t : State} (h : takeEvent e s = .next t) : t.efer = s.efer := by
  cases e with
  | pageFault linear => simp [(takePageFault_eq_next h).2, State.take]
  | machineCheck bank error u =>
    obtain ⟨-, rfl⟩ | ⟨-, -, rfl⟩ := takeMachineCheck_eq_next h <;> simp [State.take]
  | tlbFill linear physical g => obtain ⟨-, rfl⟩ | ⟨-, rfl⟩ := takeTlbFill_eq_next h <;> simp
  | tlbDrop entry => cases h; simp
  | mediaInsn w => simp [(takeMediaInsn_eq_next (w := w) h).2, State.drawn]
  | mediaFpError w => exact absurd h takeMediaFpError_ne_next
  | ifInsn => simp [permit_eq_next (outsideVirtual8086_eq_next h).2]
  | inputCsL b | inputCsD b | inputGuestRunning b => cases h; simp

theorem State.lme_congr {s t : State} (h : t.efer = s.efer) : t.lme = s.lme := by
  simp [State.lme, h]

/-- A CR0 write changes bit 10 of EFER alone, so it leaves LME. -/
theorem State.afterCr0_lme (s : State) (v : Word) : (s.afterCr0 v).lme = s.lme :=
  getLsbD_withBit s.efer 10 (s.lme && v.getLsbD 31) 8 (by decide)

theorem writeCr_keeps_lme {n : Nat} {v : Word} {s t : State} (h : writeCr n v s = .next t) : t.lme = s.lme := by
  obtain ⟨-, h0⟩ | ⟨-, -, rfl⟩ | ⟨-, h3⟩ | ⟨-, h4⟩ := writeCr_eq_next h
  · obtain ⟨-, -, -, -, -, rfl⟩ := writeCr0_eq_next h0
    exact s.afterCr0_lme v
  · exact State.lme_congr (by simp)
  · obtain ⟨-, -, -, -, -, rfl⟩ := writeCr3_eq_next h3
    exact State.lme_congr (by simp)
  · obtain ⟨-, -, -, -, rfl⟩ := writeCr4_eq_next h4
    exact State.lme_congr (by simp)

/-- While paging is on, WRMSR answers only for a value with LME as it is (41_efer_access.md R132). -/
theorem execWrmsr_keeps_lme_of_pg {s t : State} (h : execWrmsr s = .next t) (hpg : s.pg = true) : t.lme = s.lme := by
  obtain ⟨hwrite, rfl⟩ := execWrmsr_eq_next h
  obtain ⟨-, -, -, hlme, -⟩ := writeEfer_eq_next hwrite
  exact hlme hpg

/-- While paging is on, no instruction changes LME. -/
theorem exec_keeps_lme_of_pg {i : Instr} {s t : State} (h : exec i s = .next t) (hpg : s.pg = true) :
    t.lme = s.lme := by
  obtain hefer | ⟨m, n, r, rfl⟩ | rfl := controlPart_efer.exec_keeps h
  · exact State.lme_congr hefer
  · obtain ⟨u, hwrite, rfl⟩ := execMovCrR_eq_next (m := m) h
    exact (State.lme_congr (by simp)).trans (writeCr_keeps_lme hwrite)
  · exact execWrmsr_keeps_lme_of_pg h hpg

/-- Settles O14: an instruction keeps LME while paging is on, an event keeps EFER, and a step is one of the two. -/
theorem lmeFixedWhilePaging : Obligations.LmeFixedWhilePaging := by
  intro s t h hpg
  obtain ⟨turns, rest, ⟨i, hexec⟩ | ⟨e, hevent⟩⟩ := step_eq_exec_or_takeEvent h
  · exact (exec_keeps_lme_of_pg hexec (by simpa [State.pg] using hpg)).trans (State.lme_congr (by simp))
  · exact State.lme_congr ((takeEvent_keeps_efer hevent).trans (by simp))

end Sys2Proof.Machine

/-! What an event and a control-register write change, by parts of the state; and with `ControlPart` what a step leaves:
the state no operation writes (10_state.md R52, R53, R60) and, above CPL 0, the system registers (40_cr_access.md R110,
decision D10). -/

namespace Sys2Proof.Machine

/-- A part of the state apart from everything that events write. -/
structure EventPart {α : Type} (f : State → α) : Prop where
  setCr2 : ∀ s v, f (State.setCr2 s v) = f s
  setMcBanks : ∀ s l, f (State.setMcBanks s l) = f s
  setTlb : ∀ s l, f (State.setTlb s l) = f s
  setMedia : ∀ s v, f (State.setMedia s v) = f s
  setCsL : ∀ s b, f (State.setCsL s b) = f s
  setCsD : ∀ s b, f (State.setCsD s b) = f s
  setGuestRunning : ∀ s b, f (State.setGuestRunning s b) = f s
  setRaised : ∀ s r, f (State.setRaised s r) = f s
  setAnswer : ∀ s a, f (State.setAnswer s a) = f s
  setDraws : ∀ s k, f (State.setDraws s k) = f s

/-- A part of the state apart from everything that MOV CRn,r writes besides the answer. -/
structure CrFreePart {α : Type} (f : State → α) : Prop where
  setCr0 : ∀ s v, f (State.setCr0 s v) = f s
  setCr2 : ∀ s v, f (State.setCr2 s v) = f s
  setCr3 : ∀ s v, f (State.setCr3 s v) = f s
  setCr4 : ∀ s v, f (State.setCr4 s v) = f s
  setEfer : ∀ s v, f (State.setEfer s v) = f s
  setTlb : ∀ s l, f (State.setTlb s l) = f s

section
variable {α : Type} {f : State → α}

theorem EventPart.recordError (hf : EventPart f) (s : State) (bank : Nat) (error : Content) :
    f (s.recordError bank error) = f s := by
  obtain e | ⟨b, e⟩ := s.recordError_eq bank error <;> simp [e, hf.setMcBanks]

/-- An event that answers keeps such a part. -/
theorem EventPart.takeEvent_keeps (hf : EventPart f) {e : Event} {s t : State} (h : takeEvent e s = .next t) :
    f t = f s := by
  cases e with
  | pageFault linear => simp [(takePageFault_eq_next h).2, hf.setRaised, hf.setCr2]
  | machineCheck bank error u =>
    obtain ⟨-, rfl⟩ | ⟨-, -, rfl⟩ := takeMachineCheck_eq_next h <;> simp [hf.setRaised, hf.recordError]
  | tlbFill linear physical g => obtain ⟨-, rfl⟩ | ⟨-, rfl⟩ := takeTlbFill_eq_next h <;> simp [hf.setTlb]
  | tlbDrop entry => cases h; exact hf.setTlb s _
  | mediaInsn w => simp [(takeMediaInsn_eq_next (w := w) h).2, hf.setAnswer, hf.setDraws, hf.setMedia]
  | mediaFpError w => exact absurd h takeMediaFpError_ne_next
  | ifInsn => simp [permit_eq_next (outsideVirtual8086_eq_next h).2, hf.setAnswer]
  | inputCsL b => cases h; exact hf.setCsL s b
  | inputCsD b => cases h; exact hf.setCsD s b
  | inputGuestRunning b => cases h; exact hf.setGuestRunning s b

/-- A control-register write that answers was made at CPL 0 and leaves one of four states, by its number. -/
theorem writeCr_eq_update {n : Nat} {v : Word} {s t : State} (h : writeCr n v s = .next t) :
    s.cpl = 0 ∧ ((n = 0 ∧ t = s.afterCr0 v) ∨ (n = 2 ∧ t = s.setCr2 v) ∨
      (n = 3 ∧ t = (s.setCr3 v).setTlb s.tlbAfterCr3) ∨ (n = 4 ∧ t = (s.setCr4 v).setCr3 (cr3Under v s.cr3))) := by
  obtain ⟨hn, h0⟩ | ⟨hn, hcpl, ht⟩ | ⟨hn, h3⟩ | ⟨hn, h4⟩ := writeCr_eq_next h
  · obtain ⟨hcpl, -, -, -, -, ht⟩ := writeCr0_eq_next h0
    exact ⟨hcpl, .inl ⟨hn, ht⟩⟩
  · exact ⟨hcpl, .inr (.inl ⟨hn, ht⟩)⟩
  · obtain ⟨hcpl, -, -, -, -, ht⟩ := writeCr3_eq_next h3
    exact ⟨hcpl, .inr (.inr (.inl ⟨hn, ht⟩))⟩
  · obtain ⟨hcpl, -, -, -, ht⟩ := writeCr4_eq_next h4
    exact ⟨hcpl, .inr (.inr (.inr ⟨hn, ht⟩))⟩

theorem CrFreePart.afterCr0 (hf : CrFreePart f) (s : State) (v : Word) : f (s.afterCr0 v) = f s :=
  (hf.setEfer _ _).trans (hf.setCr0 s _)

/-- A control-register write that answers keeps such a part. -/
theorem CrFreePart.writeCr_keeps (hf : CrFreePart f) {n : Nat} {v : Word} {s t : State} (h : writeCr n v s = .next t) :
    f t = f s := by
  obtain ⟨-, ⟨-, rfl⟩ | ⟨-, rfl⟩ | ⟨-, rfl⟩ | ⟨-, rfl⟩⟩ := writeCr_eq_update h
  · exact hf.afterCr0 s v
  · exact hf.setCr2 s v
  · exact (hf.setTlb _ _).trans (hf.setCr3 s v)
  · exact (hf.setCr3 _ _).trans (hf.setCr4 s v)

/-- No instruction that answers changes a part that neither the control-register writes nor the others reach. -/
theorem exec_keeps_of_parts (hf : ControlPart f) (hc : CrFreePart f) {i : Instr} {s t : State}
    (h : exec i s = .next t) : f t = f s := by
  obtain hkeep | ⟨m, n, r, rfl⟩ | rfl := hf.exec_keeps h
  · exact hkeep
  · obtain ⟨u, hwrite, rfl⟩ := execMovCrR_eq_next (m := m) h
    exact (hf.setAnswer u _).trans (hc.writeCr_keeps hwrite)
  · obtain ⟨-, rfl⟩ := execWrmsr_eq_next h
    exact (hf.setAnswer _ _).trans (hc.setEfer s _)

end

/-- Above CPL 0 an instruction that answers keeps every such part: neither MOV CRn,r nor WRMSR answers there. -/
theorem ControlPart.exec_keeps_of_user {α : Type} {f : State → α} (hf : ControlPart f) {i : Instr} {s t : State}
    (h : exec i s = .next t) (hcpl : s.cpl ≠ 0) : f t = f s := by
  obtain hkeep | ⟨m, n, r, rfl⟩ | rfl := hf.exec_keeps h
  · exact hkeep
  · obtain ⟨u, hwrite, -⟩ := execMovCrR_eq_next (m := m) h
    exact absurd (writeCr_eq_update hwrite).1 hcpl
  · exact absurd (writeEfer_eq_next (execWrmsr_eq_next h).1).1 hcpl

/-- Above CPL 0 a step keeps what neither the instructions allowed there nor the events write. -/
theorem step_keeps_of_user {α : Type} {f : State → α} (hf : ControlPart f) (he : EventPart f)
    (hcode : ∀ s v, f (State.setCode s v) = f s) (hsched : ∀ s v, f (State.setSchedule s v) = f s) {s t : State}
    (h : step s = .next t) (hcpl : s.cpl ≠ 0) : f t = f s := by
  obtain ⟨turns, rest, ⟨i, hexec⟩ | ⟨e, hevent⟩⟩ := step_eq_exec_or_takeEvent h
  · simpa [hcode, hsched] using hf.exec_keeps_of_user hexec hcpl
  · simpa [hcode, hsched] using he.takeEvent_keeps hevent

/-! The system registers above CPL 0. -/

/-- What MOV CRn,r and WRMSR are for, but CR2, which a page fault loads too. -/
def State.systemRegisters (s : State) : Word × Word × Word × Word := (s.cr0, s.cr3, s.cr4, s.efer)

theorem controlPart_systemRegisters : ControlPart State.systemRegisters := by constructor <;> intros <;> rfl

theorem eventPart_systemRegisters : EventPart State.systemRegisters := by constructor <;> intros <;> rfl

theorem controlPart_cr2 : ControlPart State.cr2 := by constructor <;> intros <;> rfl

/-- An event keeps CR2, or is a page fault, which latches the address CR2 gets. -/
theorem takeEvent_cr2 {e : Event} {s t : State} (h : takeEvent e s = .next t) :
    t.cr2 = s.cr2 ∨ ∃ la, t.raised = some (.pageFault la) ∧ t.cr2 = la := by
  cases e with
  | pageFault linear => 
    obtain ⟨-, rfl⟩ := takePageFault_eq_next h
    exact .inr ⟨_, rfl, rfl⟩
  | machineCheck bank error u =>
    left
    obtain e | ⟨b, e⟩ := s.recordError_eq bank error <;>
      obtain ⟨-, rfl⟩ | ⟨-, -, rfl⟩ := takeMachineCheck_eq_next h <;> simp [e]
  | tlbFill linear physical g => obtain ⟨-, rfl⟩ | ⟨-, rfl⟩ := takeTlbFill_eq_next h <;> simp
  | mediaInsn w => simp [(takeMediaInsn_eq_next (w := w) h).2]
  | mediaFpError w => exact absurd h takeMediaFpError_ne_next
  | ifInsn => simp [permit_eq_next (outsideVirtual8086_eq_next h).2]
  | tlbDrop | inputCsL | inputCsD | inputGuestRunning => cases h; simp

theorem State.compatMode_congr {s t : State} (he : t.efer = s.efer) (hl : t.csL = s.csL) :
    t.compatMode = s.compatMode := by
  simp [State.compatMode, State.lma, he, hl]

theorem step_cr2_of_user {s t : State} (h : step s = .next t) (hcpl : s.cpl ≠ 0) :
    t.cr2 = s.cr2 ∨ ∃ la, t.raised = some (.pageFault la) ∧ t.cr2 = la := by
  obtain ⟨turns, rest, ⟨i, hexec⟩ | ⟨e, hevent⟩⟩ := step_eq_exec_or_takeEvent h
  · exact .inl (by simpa using controlPart_cr2.exec_keeps_of_user hexec hcpl)
  · simpa using takeEvent_cr2 hevent

/-- Settles O48: above CPL 0 no instruction writes a system register, and of the events only a page fault writes one,
CR2; the mode follows EFER and the L bit. -/
theorem userCannotChangeSystemRegisters : Obligations.UserCannotChangeSystemRegisters := by
  intro s t h hcpl
  have hsys : t.systemRegisters = s.systemRegisters := step_keeps_of_user controlPart_systemRegisters
    eventPart_systemRegisters (fun _ _ => rfl) (fun _ _ => rfl) h hcpl
  simp only [State.systemRegisters, Prod.mk.injEq] at hsys
  obtain ⟨h0, h3, h4, he⟩ := hsys
  exact ⟨h0, h3, h4, he, step_cr2_of_user h hcpl,
    fun hl => ⟨State.mode64_congr he hl, State.compatMode_congr he hl⟩⟩

/-! The state no operation writes. -/

/-- What neither an instruction nor an event writes, but bit 4 of CR0: IOPL, VM, VIP, VM_CR, the redirection bitmap and
the parameters. -/
def State.unwritten (s : State) : BitVec 2 × Bool × Bool × VmCr × BitVec 256 × Params :=
  (s.rflags.iopl, s.rflags.vm, s.rflags.vip, s.vmCr, s.redirect, s.params)

theorem controlPart_unwritten : ControlPart State.unwritten := by constructor <;> intros <;> rfl

theorem crFreePart_unwritten : CrFreePart State.unwritten := by constructor <;> intros <;> rfl

theorem eventPart_unwritten : EventPart State.unwritten := by constructor <;> intros <;> rfl

theorem exec_keeps_unwritten {i : Instr} {s t : State} (h : exec i s = .next t) : t.unwritten = s.unwritten :=
  exec_keeps_of_parts controlPart_unwritten crFreePart_unwritten h

theorem step_keeps_unwritten {s t : State} (h : step s = .next t) : t.unwritten = s.unwritten :=
  step_keeps (fun _ _ => rfl) (fun _ _ => rfl) (fun _ _ _ => exec_keeps_unwritten)
    (fun _ _ _ => eventPart_unwritten.takeEvent_keeps) h

/-- Bit 4 of CR0, the parameter CR0_BIT4 (10_state.md, decision D4). -/
def State.cr0Bit4 (s : State) : Bool := s.cr0.getLsbD 4

theorem controlPart_cr0Bit4 : ControlPart State.cr0Bit4 := by constructor <;> intros <;> rfl

theorem eventPart_cr0Bit4 : EventPart State.cr0Bit4 := by constructor <;> intros <;> rfl

theorem State.afterCr0_cr0Bit4 (s : State) (v : Word) : (s.afterCr0 v).cr0Bit4 = s.cr0Bit4 :=
  getLsbD_withBit v 4 (s.cr0.getLsbD 4) 4 (by decide)

theorem writeCr_keeps_cr0Bit4 {n : Nat} {v : Word} {s t : State} (h : writeCr n v s = .next t) :
    t.cr0Bit4 = s.cr0Bit4 := by
  obtain ⟨-, ⟨-, rfl⟩ | ⟨-, rfl⟩ | ⟨-, rfl⟩ | ⟨-, rfl⟩⟩ := writeCr_eq_update h
  · exact s.afterCr0_cr0Bit4 v
  · rfl
  · rfl
  · rfl

theorem exec_keeps_cr0Bit4 {i : Instr} {s t : State} (h : exec i s = .next t) : t.cr0Bit4 = s.cr0Bit4 := by
  obtain hkeep | ⟨m, n, r, rfl⟩ | rfl := controlPart_cr0Bit4.exec_keeps h
  · exact hkeep
  · obtain ⟨u, hwrite, rfl⟩ := execMovCrR_eq_next (m := m) h
    exact (controlPart_cr0Bit4.setAnswer u _).trans (writeCr_keeps_cr0Bit4 hwrite)
  · rw [(execWrmsr_eq_next h).2]
    rfl

/-- Settles O47: neither fetching, the schedule, an instruction nor an event writes any of it. -/
theorem unwrittenState : Obligations.UnwrittenState := by
  intro s t h
  have hrest := step_keeps_unwritten h
  simp only [State.unwritten, Prod.mk.injEq] at hrest
  obtain ⟨hiopl, hvm, hvip, hvmCr, hredirect, hparams⟩ := hrest
  have hbit : t.cr0Bit4 = s.cr0Bit4 := step_keeps (fun _ _ => rfl) (fun _ _ => rfl)
    (fun _ _ _ => exec_keeps_cr0Bit4) (fun _ _ _ => eventPart_cr0Bit4.takeEvent_keeps) h
  exact ⟨hiopl, hvm, hvip, hvmCr, hredirect, hparams, hbit⟩

end Sys2Proof.Machine

/-! The invariants of the state (10_state.md R64): what each update of the state keeps of them, and that every step
keeps them; LMA follows LME and PG (R50), and long mode does not exist in the 32-bit variant (decision D2). -/

namespace Sys2Proof.Machine

/-! LMA under an instruction and a step. -/

theorem State.lma_congr {s t : State} (h : t.efer = s.efer) : t.lma = s.lma := by
  simp [State.lma, h]

/-- A CR0 write makes LMA what LME and the written PG give. -/
theorem State.afterCr0_lma (s : State) (v : Word) : (s.afterCr0 v).lma = (s.lme && v.getLsbD 31) :=
  getLsbD_withBit s.efer 10 (s.lme && v.getLsbD 31) 10 (by decide)

theorem State.afterCr0_pg (s : State) (v : Word) : (s.afterCr0 v).pg = v.getLsbD 31 :=
  getLsbD_withBit v 4 (s.cr0.getLsbD 4) 31 (by decide)

theorem State.afterCr0_pe (s : State) (v : Word) : (s.afterCr0 v).pe = v.getLsbD 0 :=
  getLsbD_withBit v 4 (s.cr0.getLsbD 4) 0 (by decide)

/-- An instruction keeps EFER, or is MOV CR0,r or WRMSR. -/
theorem exec_efer {i : Instr} {s t : State} (h : exec i s = .next t) :
    t.efer = s.efer ∨ (∃ m r, i = .movCrR m 0#4 r) ∨ i = .wrmsr := by
  obtain hefer | ⟨m, n, r, rfl⟩ | rfl := controlPart_efer.exec_keeps h
  · exact .inl hefer
  · obtain ⟨u, hwrite, rfl⟩ := execMovCrR_eq_next (m := m) h
    obtain ⟨-, ⟨hn, -⟩ | ⟨-, rfl⟩ | ⟨-, rfl⟩ | ⟨-, rfl⟩⟩ := writeCr_eq_update hwrite
    · exact .inr (.inl ⟨m, r, by rw [(BitVec.toNat_eq_nat.mp hn).2]⟩)
    · exact .inl rfl
    · exact .inl rfl
    · exact .inl rfl
  · exact .inr (.inr rfl)

theorem execWrmsr_keeps_lma {s t : State} (h : execWrmsr s = .next t) : t.lma = s.lma := by
  obtain ⟨hwrite, rfl⟩ := execWrmsr_eq_next h
  obtain ⟨-, -, hlma, -⟩ := writeEfer_eq_next hwrite
  exact hlma

/-- An instruction that changes LMA is MOV CR0,r. -/
theorem exec_lma_of_ne {i : Instr} {s t : State} (h : exec i s = .next t) (hne : t.lma ≠ s.lma) :
    ∃ m r, i = .movCrR m 0#4 r := by
  obtain hefer | h0 | rfl := exec_efer h
  · exact absurd (State.lma_congr hefer) hne
  · exact h0
  · exact absurd (execWrmsr_keeps_lma h) hne

/-- The mode bits CR0.PG, EFER.LME and EFER.LMA agree (10_state.md R50). -/
def State.lmaAgrees (s : State) : Prop := s.lma = (s.lme && s.pg)

theorem controlPart_lmaAgrees : ControlPart State.lmaAgrees := by constructor <;> intros <;> rfl

theorem eventPart_lmaAgrees : EventPart State.lmaAgrees := by constructor <;> intros <;> rfl

theorem writeCr_lmaAgrees {n : Nat} {v : Word} {s t : State} (h : writeCr n v s = .next t) (hs : s.lmaAgrees) :
    t.lmaAgrees := by
  obtain ⟨-, ⟨-, rfl⟩ | ⟨-, rfl⟩ | ⟨-, rfl⟩ | ⟨-, rfl⟩⟩ := writeCr_eq_update h
  · rw [State.lmaAgrees, s.afterCr0_lma, s.afterCr0_lme, s.afterCr0_pg]
  · exact hs
  · exact hs
  · exact hs

theorem execWrmsr_lmaAgrees {s t : State} (h : execWrmsr s = .next t) (hs : s.lmaAgrees) : t.lmaAgrees := by
  have hpg : t.pg = s.pg := by rw [(execWrmsr_eq_next h).2]; rfl
  rw [State.lmaAgrees, execWrmsr_keeps_lma h, hs, hpg]
  cases hp : s.pg with
  | false => simp
  | true => rw [execWrmsr_keeps_lme_of_pg h hp]

theorem exec_lmaAgrees {i : Instr} {s t : State} (h : exec i s = .next t) (hs : s.lmaAgrees) : t.lmaAgrees := by
  obtain hkeep | ⟨m, n, r, rfl⟩ | rfl := controlPart_lmaAgrees.exec_keeps h
  · rwa [hkeep]
  · obtain ⟨u, hwrite, rfl⟩ := execMovCrR_eq_next (m := m) h
    exact (controlPart_lmaAgrees.setAnswer u _).mpr (writeCr_lmaAgrees hwrite hs)
  · exact execWrmsr_lmaAgrees h hs

/-- Settles O50: the instructions one by one, and a step as one of them or an event. -/
theorem lmaFollowsLmeAndPg : Obligations.LmaFollowsLmeAndPg := by
  refine ⟨fun i s t h hne => exec_lma_of_ne h hne, fun s t h hs => ?_⟩
  obtain ⟨turns, rest, ⟨i, hexec⟩ | ⟨e, hevent⟩⟩ := step_eq_exec_or_takeEvent h
  · exact exec_lmaAgrees hexec hs
  · exact (eventPart_lmaAgrees.takeEvent_keeps hevent).mpr hs

/-! The invariants under the updates of one field. -/

/-- Every field the invariants do not speak of. -/
theorem State.Inv.setAnswer {s : State} (h : s.Inv) (a : Answer) : (s.setAnswer a).Inv := { h with }
theorem State.Inv.setDraws {s : State} (h : s.Inv) (k : Nat) : (s.setDraws k).Inv := { h with }
theorem State.Inv.setRaised {s : State} (h : s.Inv) (f : Option Fault) : (s.setRaised f).Inv := { h with }
theorem State.Inv.setCode {s : State} (h : s.Inv) (l : List Byte) : (s.setCode l).Inv := { h with }
theorem State.Inv.setSchedule {s : State} (h : s.Inv) (l : List Turn) : (s.setSchedule l).Inv := { h with }
theorem State.Inv.setCsL {s : State} (h : s.Inv) (b : Bool) : (s.setCsL b).Inv := { h with }
theorem State.Inv.setCsD {s : State} (h : s.Inv) (b : Bool) : (s.setCsD b).Inv := { h with }
theorem State.Inv.setGuestRunning {s : State} (h : s.Inv) (b : Bool) : (s.setGuestRunning b).Inv := { h with }
theorem State.Inv.setIf {s : State} (h : s.Inv) (b : Bool) : (s.setIf b).Inv := { h with }
theorem State.Inv.setVif {s : State} (h : s.Inv) (b : Bool) : (s.setVif b).Inv := { h with }
theorem State.Inv.setTsc {s : State} (h : s.Inv) (v : Word) : (s.setTsc v).Inv := { h with }
theorem State.Inv.setXcr0 {s : State} (h : s.Inv) (v : Word) : (s.setXcr0 v).Inv := { h with }
theorem State.Inv.setMedia {s : State} (h : s.Inv) (v : Media) : (s.setMedia v).Inv := { h with }

theorem State.Inv.setMem {s : State} (h : s.Inv) {m : List Host.Cell} (hm : Memory.wf m = true) :
    (s.setMem m).Inv := { h with mem := hm }

theorem State.Inv.setPerf {s : State} (h : s.Inv) {l : List (Nat × Word)} (hl : storeWf perfDefault l = true) :
    (s.setPerf l).Inv := { h with perf := hl }

theorem State.Inv.setMcBanks {s : State} (h : s.Inv) {l : List (Nat × McBank)} (hl : storeWf bankDefault l = true) :
    (s.setMcBanks l).Inv := { h with mcBanks := hl }

theorem State.Inv.setTlb {s : State} (h : s.Inv) {l : List TlbEntry} (hl : l.Nodup) : (s.setTlb l).Inv :=
  { h with tlb := hl }

theorem State.Inv.setCr2 {s : State} (h : s.Inv) {v : Word} (hv : s.params.arch = .x86_32 → high32 v = 0#32) :
    (s.setCr2 v).Inv := by
  refine { h with narrow := fun ha => ?_ }
  obtain ⟨-, h6, h7, hgpr⟩ := h.narrow ha
  exact ⟨hv ha, h6, h7, hgpr⟩

theorem State.Inv.setDr6 {s : State} (h : s.Inv) {v : Word} (hv : s.params.arch = .x86_32 → high32 v = 0#32) :
    (s.setDr6 v).Inv := by
  refine { h with narrow := fun ha => ?_ }
  obtain ⟨h2, -, h7, hgpr⟩ := h.narrow ha
  exact ⟨h2, hv ha, h7, hgpr⟩

theorem State.Inv.setDr7 {s : State} (h : s.Inv) {v : Word} (hv : s.params.arch = .x86_32 → high32 v = 0#32) :
    (s.setDr7 v).Inv := by
  refine { h with narrow := fun ha => ?_ }
  obtain ⟨h2, h6, -, hgpr⟩ := h.narrow ha
  exact ⟨h2, h6, hv ha, hgpr⟩

theorem State.Inv.setGpr {s : State} (h : s.Inv) (r : BitVec 4) {v : Word}
    (hv : s.params.arch = .x86_32 → high32 v = 0#32) : (s.setGpr r v).Inv := by
  refine { h with narrow := fun ha => ?_ }
  obtain ⟨h2, h6, h7, hgpr⟩ := h.narrow ha
  refine ⟨h2, h6, h7, fun q => ?_⟩
  by_cases hq : q = r
  · subst hq
    rw [State.getGpr_setGpr_same]
    exact hv ha
  · rw [State.getGpr_setGpr_other s v hq]
    exact hgpr q

/-! The 32-bit variant. -/

/-- Without long mode as a feature LME is 0, so long mode is not active (decision D2). -/
theorem State.Inv.lma_narrow {s : State} (h : s.Inv) (ha : s.params.arch = .x86_32) : s.lma = false := by
  have hlme : s.lme = false := by
    have hf := h.features
    simp only [State.eferFeatureAbsent, Params.hasLm, ha, Bool.or_eq_false_iff] at hf
    obtain ⟨⟨⟨hlm, -⟩, -⟩, -⟩ := hf
    simpa [State.lme] using hlm
  rw [h.lma, hlme, Bool.false_and]

theorem State.Inv.mode64_narrow {s : State} (h : s.Inv) (ha : s.params.arch = .x86_32) : s.mode64 = false := by
  rw [State.mode64, h.lma_narrow ha, Bool.false_and]

theorem State.Inv.srcReg_narrow {s : State} (h : s.Inv) (r : BitVec 4) (ha : s.params.arch = .x86_32) :
    high32 (s.srcReg r) = 0#32 := by
  simp [State.srcReg, h.mode64_narrow ha]

theorem State.linearOf_narrow {s : State} (linear : Word) (ha : s.params.arch = .x86_32) :
    high32 (s.linearOf linear) = 0#32 := by
  simp [State.linearOf, ha]

/-! The invariants under the composed updates. -/

theorem State.Inv.setReg32 {s : State} (h : s.Inv) (r : BitVec 4) (v : BitVec 32) : (s.setReg32 r v).Inv :=
  h.setGpr r fun _ => high32_zext64 v

theorem State.Inv.setEdxEax {s : State} (h : s.Inv) (v : Word) : (s.setEdxEax v).Inv :=
  (h.setReg32 _ _).setReg32 _ _

theorem State.Inv.dstReg {s : State} (h : s.Inv) (r : BitVec 4) (v : Word) : (s.dstReg r v).Inv :=
  h.setGpr r fun ha => by simp [h.mode64_narrow ha]

theorem State.Inv.recordError {s : State} (h : s.Inv) (bank : Nat) (error : Content) :
    (s.recordError bank error).Inv := by
  obtain e | ⟨b, e⟩ := s.recordError_eq bank error
  · exact e.symm ▸ h
  · exact e.symm ▸ h.setMcBanks (storePut_wf bankDefault _ _ _ h.mcBanks)

/-! The invariants under the writes of the control registers and EFER. -/

/-- Replacing a named bit of an EFER value sets no unnamed bit. -/
theorem withBit_eferNamed {v : Word} {k : Nat} (b : Bool) (hk : k < 64) (hnamed : (~~~eferNamed).getLsbD k = false)
    (h : v &&& ~~~eferNamed = 0#64) : withBit v k b &&& ~~~eferNamed = 0#64 := by
  apply BitVec.eq_of_getLsbD_eq
  intro i _
  have hi := congrArg (·.getLsbD i) h
  simp only [BitVec.getLsbD_and] at hi ⊢
  rw [getLsbD_withBit v k b i hk]
  split
  · rename_i e
    rw [e, hnamed, Bool.and_false, BitVec.getLsbD_zero]
  · exact hi

/-- Which features an EFER value asks for does not depend on LMA. -/
theorem State.eferFeatureAbsent_withBit_lma (s : State) (v : Word) (b : Bool) :
    s.eferFeatureAbsent (withBit v 10 b) = s.eferFeatureAbsent v := by
  simp only [State.eferFeatureAbsent, getLsbD_withBit v 10 b _ (by decide)]
  rfl

theorem State.Inv.afterCr0 {s : State} (h : s.Inv) {v : Word} (hhigh : high32 v = 0#32)
    (hpe : v.getLsbD 31 = true → v.getLsbD 0 = true)
    (hpae : v.getLsbD 31 = true → s.pg = false → s.lme = true → s.pae = true) : (s.afterCr0 v).Inv := by
  refine { h with lma := ?_, cr0High := ?_, eferNamed := ?_, paging := ?_, longModePae := ?_, features := ?_ }
  · rw [s.afterCr0_lma, s.afterCr0_lme, s.afterCr0_pg]
  · exact (high32_withBit v 4 _ (by decide)).trans hhigh
  · exact withBit_eferNamed _ (by decide) (by decide) h.eferNamed
  · rw [s.afterCr0_pg, s.afterCr0_pe]
    exact hpe
  · rw [s.afterCr0_lma, Bool.and_eq_true]
    rintro ⟨hlme, hv⟩
    cases hpg : s.pg with
    | false => exact hpae hv hpg hlme
    | true => exact h.longModePae (by rw [h.lma, hlme, hpg, Bool.and_true])
  · exact (s.eferFeatureAbsent_withBit_lma s.efer _).trans h.features

theorem State.Inv.tlbAfterCr3_nodup {s : State} (h : s.Inv) : s.tlbAfterCr3.Nodup := by
  unfold State.tlbAfterCr3
  split
  · exact h.tlb.filter _
  · exact List.nodup_nil

theorem State.Inv.setCr3 {s : State} (h : s.Inv) {v : Word} (hhigh : high32 v = 0#32) (hlow : v.extractLsb' 0 3 = 0#3)
    (hpae : s.pae = false → v.extractLsb' 5 7 = 0#7) : (s.setCr3 v).Inv :=
  { h with cr3Low := hlow, cr3High := hhigh, cr3Unnamed := hpae }

/-- Outside bits 11:5 a CR4 write leaves CR3. -/
theorem cr3Under_extractLsb' (v cr3 : Word) {k w : Nat} (hk : k + w ≤ 5 ∨ 12 ≤ k) :
    (cr3Under v cr3).extractLsb' k w = cr3.extractLsb' k w := by
  apply BitVec.eq_of_getLsbD_eq
  intro i hi
  rw [BitVec.getLsbD_extractLsb', BitVec.getLsbD_extractLsb', getLsbD_cr3Under, if_neg (by omega)]

theorem State.Inv.setCr4 {s : State} (h : s.Inv) {v : Word} (hnamed : v &&& ~~~Machine.cr4Named = 0#64)
    (hxsave : v.getLsbD 18 = true → s.params.hasXsave = true) (hpae : s.lma = true → v.getLsbD 5 = true) :
    ((s.setCr4 v).setCr3 (cr3Under v s.cr3)).Inv :=
  { h with
    cr3Low := (cr3Under_extractLsb' v s.cr3 (.inl (by decide))).trans h.cr3Low
    cr3High := (cr3Under_extractLsb' v s.cr3 (.inr (by decide))).trans h.cr3High
    cr3Unnamed := cr3Under_unnamed s.cr3
    cr4Named := hnamed
    longModePae := hpae
    xsave := hxsave }

theorem State.Inv.writeCr {n : Nat} {v : Word} {s t : State} (hs : s.Inv)
    (hv : s.params.arch = .x86_32 → high32 v = 0#32) (h : writeCr n v s = .next t) : t.Inv := by
  obtain ⟨-, h0⟩ | ⟨-, -, rfl⟩ | ⟨-, h3⟩ | ⟨-, h4⟩ := writeCr_eq_next h
  · obtain ⟨-, hhigh, hpe, hpae, -, rfl⟩ := writeCr0_eq_next h0
    exact hs.afterCr0 hhigh hpe hpae
  · exact hs.setCr2 hv
  · obtain ⟨-, -, hhigh, hlow, hpae, rfl⟩ := writeCr3_eq_next h3
    exact (hs.setCr3 hhigh hlow hpae).setTlb hs.tlbAfterCr3_nodup
  · obtain ⟨-, hnamed, hxsave, hpae, rfl⟩ := writeCr4_eq_next h4
    exact hs.setCr4 hnamed hxsave hpae

theorem State.Inv.execWrmsr {s t : State} (hs : s.Inv) (h : execWrmsr s = .next t) : t.Inv := by
  have hagrees : t.lmaAgrees := execWrmsr_lmaAgrees h hs.lma
  have hlma := execWrmsr_keeps_lma h
  obtain ⟨hwrite, rfl⟩ := execWrmsr_eq_next h
  obtain ⟨-, hnamed, -, -, hfeatures, -, -⟩ := writeEfer_eq_next hwrite
  exact { hs with
    lma := hagrees
    eferNamed := hnamed
    longModePae := fun hl => hs.longModePae (hlma.symm.trans hl)
    features := hfeatures }

/-! The invariants under every step. -/

theorem State.Inv.exec {i : Instr} {s t : State} (hs : s.Inv) (h : exec i s = .next t) : t.Inv := by
  cases i with
  | movRCr m n r =>
    obtain ⟨-, v, rfl, -⟩ := execMovRCr_eq_next (m := m) h
    exact (hs.dstReg r v).setAnswer _
  | movCrR m n r =>
    obtain ⟨u, hwrite, rfl⟩ := execMovCrR_eq_next (m := m) h
    exact (hs.writeCr (hs.srcReg_narrow r) hwrite).setAnswer _
  | rdmsr => exact (execRdmsr_eq_next h).2 ▸ (hs.setEdxEax _).setAnswer _
  | wrmsr => exact hs.execWrmsr h
  | cli =>
    obtain rfl | rfl := execCli_eq_next h
    · exact (hs.setIf _).setAnswer _
    · exact (hs.setVif _).setAnswer _
  | sti =>
    obtain rfl | rfl := execSti_eq_next h
    · exact (hs.setIf _).setAnswer _
    · exact (hs.setVif _).setAnswer _
  | int i => exact execInt_eq_next (i := i) h ▸ hs.setAnswer _
  | rdtsc =>
    obtain ⟨v, rfl⟩ := execRdtsc_eq_next h
    exact (((hs.setTsc v).setEdxEax v).setDraws _).setAnswer _
  | rdtscp =>
    obtain ⟨v, c, rfl⟩ := execRdtscp_eq_next h
    exact ((((hs.setTsc v).setEdxEax v).setReg32 _ c).setDraws _).setAnswer _
  | movRDr m n r =>
    obtain ⟨v, rfl, -⟩ := execMovRDr_eq_next (m := m) h
    exact (hs.dstReg r v).setAnswer _
  | movDrR m n r =>
    obtain rfl | rfl := execMovDrR_eq_next (m := m) h
    · exact (hs.setDr6 (hs.srcReg_narrow r)).setAnswer _
    · exact (hs.setDr7 (hs.srcReg_narrow r)).setAnswer _
  | rdpmc =>
    obtain ⟨v, rfl⟩ := execRdpmc_eq_next h
    exact (((hs.setPerf (storePut_wf _ _ _ v hs.perf)).setEdxEax v).setDraws _).setAnswer _
  | fxsave op =>
    exact execFxsave_eq_next h ▸ ((hs.setMem (memStoreImage_wf _ _ _ _ hs.mem)).setDraws _).setAnswer _
  | fxrstor op => exact execFxrstor_eq_next h ▸ ((hs.setMedia _).setDraws _).setAnswer _
  | xgetbv =>
    obtain ⟨v, rfl⟩ := execXgetbv_eq_next h
    exact ((hs.setEdxEax v).setDraws _).setAnswer _
  | xsetbv => exact (execXsetbv_eq_next h).2 ▸ ((hs.setXcr0 _).setDraws _).setAnswer _
  | xsave op =>
    obtain ⟨f, n, rfl⟩ := execXsave_eq_next h
    exact ((hs.setMem (memStoreImage_wf _ f n _ hs.mem)).setDraws _).setAnswer _
  | xrstor op => exact execXrstor_eq_next h ▸ ((hs.setMedia _).setDraws _).setAnswer _
  | syscall => exact (execSyscall_eq_next h).2 ▸ hs.setAnswer _
  | sysret =>
    obtain ⟨-, -, rfl⟩ := execSysret_eq_next h
    exact hs.setAnswer _
  | vmrun | vmmcall | vmload | vmsave | stgi | clgi | skinit | invlpga => exact svm_eq_next h ▸ hs.setAnswer _
  | cpuid =>
    obtain ⟨a, b, c, d, rfl⟩ := execCpuid_eq_next h
    exact ((((hs.setReg32 _ a).setReg32 _ b).setReg32 _ c).setReg32 _ d).setAnswer _

theorem State.Inv.takeEvent {e : Event} {s t : State} (hs : s.Inv) (h : takeEvent e s = .next t) : t.Inv := by
  cases e with
  | pageFault linear =>
    obtain ⟨-, rfl⟩ := takePageFault_eq_next h
    exact (hs.setCr2 (State.linearOf_narrow linear)).setRaised _
  | machineCheck bank error u =>
    obtain ⟨-, rfl⟩ | ⟨-, -, rfl⟩ := takeMachineCheck_eq_next h
    · exact hs.recordError bank error
    · exact (hs.recordError bank error).setRaised _
  | tlbFill linear physical g =>
    obtain ⟨-, rfl⟩ | ⟨-, rfl⟩ := takeTlbFill_eq_next h
    · exact hs.setTlb hs.tlb.insert
    · exact hs
  | tlbDrop entry =>
    cases h
    exact hs.setTlb (hs.tlb.filter _)
  | mediaInsn w => exact (takeMediaInsn_eq_next (w := w) h).2 ▸ ((hs.setMedia _).setDraws _).setAnswer _
  | mediaFpError w => exact absurd h takeMediaFpError_ne_next
  | ifInsn => exact permit_eq_next (outsideVirtual8086_eq_next h).2 ▸ hs.setAnswer _
  | inputCsL b => cases h; exact hs.setCsL b
  | inputCsD b => cases h; exact hs.setCsD b
  | inputGuestRunning b => cases h; exact hs.setGuestRunning b

/-- Settles O51: a step is an instruction or an event, and each keeps the invariants. -/
theorem stepKeepsInvariants : Obligations.StepKeepsInvariants := by
  intro s t hs h
  obtain ⟨turns, rest, ⟨i, hexec⟩ | ⟨e, hevent⟩⟩ := step_eq_exec_or_takeEvent h
  · exact ((hs.setSchedule turns).setCode rest).exec hexec
  · exact ((hs.setSchedule turns).setCode rest).takeEvent hevent

/-- Settles O53: the parameters stay, and under the invariants the 32-bit variant has LMA off. -/
theorem noLongModeInX86_32 : Obligations.NoLongModeInX86_32 := by
  intro s t hs ha h
  obtain ⟨-, -, -, -, -, hparams, -⟩ := unwrittenState s t h
  have hlma : t.lma = false := (stepKeepsInvariants s t hs h).lma_narrow (hparams ▸ ha)
  exact ⟨hlma, by rw [State.mode64, hlma, Bool.false_and], by rw [State.compatMode, hlma, Bool.false_and]⟩

end Sys2Proof.Machine

/-! The frame of every instruction: which instructions write which part of the state. -/

namespace Sys2Proof.Machine

/-! The control registers and the TLB: only MOV CRn,r writes them, by its number. -/

theorem writeCr_frame {n : Nat} {v : Word} {s t : State} (h : writeCr n v s = .next t) :
    (t.cr0 ≠ s.cr0 → n = 0) ∧ (t.cr2 ≠ s.cr2 → n = 2) ∧ (t.cr3 ≠ s.cr3 → n = 3 ∨ n = 4) ∧
      (t.tlb ≠ s.tlb → n = 3) ∧ (t.cr4 ≠ s.cr4 → n = 4) := by
  obtain ⟨-, ⟨rfl, rfl⟩ | ⟨rfl, rfl⟩ | ⟨rfl, rfl⟩ | ⟨rfl, rfl⟩⟩ := writeCr_eq_update h
  · simp [State.afterCr0]
  · simp
  · simp
  · simp

/-- CR0, CR2, CR3, the TLB and CR4. -/
def State.pagingRegisters (s : State) : Word × Word × Word × List TlbEntry × Word :=
  (s.cr0, s.cr2, s.cr3, s.tlb, s.cr4)

theorem controlPart_pagingRegisters : ControlPart State.pagingRegisters := by constructor <;> intros <;> rfl

/-- An instruction keeps these registers, or it is MOV CRn,r and changes those of its number. -/
theorem exec_pagingRegisters {i : Instr} {s t : State} (h : exec i s = .next t) :
    t.pagingRegisters = s.pagingRegisters ∨ ∃ m n r, i = .movCrR m n r ∧
      (t.cr0 ≠ s.cr0 → n = 0#4) ∧ (t.cr2 ≠ s.cr2 → n = 2#4) ∧ (t.cr3 ≠ s.cr3 → n = 3#4 ∨ n = 4#4) ∧
        (t.tlb ≠ s.tlb → n = 3#4) ∧ (t.cr4 ≠ s.cr4 → n = 4#4) := by
  obtain hkeep | ⟨m, n, r, rfl⟩ | rfl := controlPart_pagingRegisters.exec_keeps h
  · exact .inl hkeep
  · obtain ⟨u, hwrite, rfl⟩ := execMovCrR_eq_next (m := m) h
    obtain ⟨h0, h2, h3, htlb, h4⟩ := writeCr_frame hwrite
    have hnumber {k : Nat} (hn : n.toNat = k) : n = BitVec.ofNat 4 k := (BitVec.toNat_eq_nat.mp hn).2
    exact .inr ⟨m, n, r, rfl, fun e => hnumber (h0 e), fun e => hnumber (h2 e),
      fun e => (h3 e).imp hnumber hnumber, fun e => hnumber (htlb e), fun e => hnumber (h4 e)⟩
  · obtain ⟨-, rfl⟩ := execWrmsr_eq_next h
    exact .inl rfl

/-- The control registers and the TLB change only under the MOV CRn,r of their number. -/
theorem exec_pagingRegisters_frame {i : Instr} {s t : State} (h : exec i s = .next t) :
    (t.cr0 ≠ s.cr0 → ∃ m r, i = .movCrR m 0#4 r) ∧ (t.cr2 ≠ s.cr2 → ∃ m r, i = .movCrR m 2#4 r) ∧
      (t.cr3 ≠ s.cr3 → ∃ m r, i = .movCrR m 3#4 r ∨ i = .movCrR m 4#4 r) ∧
      (t.tlb ≠ s.tlb → ∃ m r, i = .movCrR m 3#4 r) ∧ (t.cr4 ≠ s.cr4 → ∃ m r, i = .movCrR m 4#4 r) := by
  obtain hkeep | ⟨m, n, r, rfl, h0, h2, h3, htlb, h4⟩ := exec_pagingRegisters h
  · simp only [State.pagingRegisters, Prod.mk.injEq] at hkeep
    obtain ⟨h0, h2, h3, htlb, h4⟩ := hkeep
    exact ⟨absurd h0, absurd h2, absurd h3, absurd htlb, absurd h4⟩
  · refine ⟨fun e => ⟨m, r, by rw [h0 e]⟩, fun e => ⟨m, r, by rw [h2 e]⟩, fun e => ⟨m, r, ?_⟩,
      fun e => ⟨m, r, by rw [htlb e]⟩, fun e => ⟨m, r, by rw [h4 e]⟩⟩
    exact (h3 e).imp (fun hn => by rw [hn]) (fun hn => by rw [hn])

/-! What no instruction writes. -/

/-- The program, the schedule, the exception latch, the inputs and the machine-check banks. -/
def State.eventOnly (s : State) :
    List Byte × List Turn × Option Fault × Bool × Bool × Bool × List (Nat × McBank) :=
  (s.code, s.schedule, s.raised, s.csL, s.csD, s.guestRunning, s.mcBanks)

theorem controlPart_eventOnly : ControlPart State.eventOnly := by constructor <;> intros <;> rfl

theorem crFreePart_eventOnly : CrFreePart State.eventOnly := by constructor <;> intros <;> rfl

theorem exec_keeps_eventOnly {i : Instr} {s t : State} (h : exec i s = .next t) :
    t.code = s.code ∧ t.schedule = s.schedule ∧ t.raised = s.raised ∧ t.csL = s.csL ∧ t.csD = s.csD ∧
      t.guestRunning = s.guestRunning ∧ t.mcBanks = s.mcBanks := by
  simpa only [State.eventOnly, Prod.mk.injEq] using exec_keeps_of_parts controlPart_eventOnly crFreePart_eventOnly h

/-! Flags, debug registers, memory, media state, XCR0, counters and general registers. -/

/-- What the instructions other than MOV CRn,r and WRMSR write, the answer and the draw counter apart. -/
def State.dataPart (s : State) :
    Vector Word 16 × Rflags × Word × Word × List Host.Cell × Media × Word × Word × List (Nat × Word) :=
  (s.gpr, s.rflags, s.dr6, s.dr7, s.mem, s.media, s.xcr0, s.tsc, s.perf)

theorem crFreePart_dataPart : CrFreePart State.dataPart := by constructor <;> intros <;> rfl

theorem execMovCrR_dataPart {m : BitVec 2} {n r : BitVec 4} {s t : State} (h : execMovCrR m n r s = .next t) :
    t.dataPart = s.dataPart := by
  obtain ⟨u, hwrite, rfl⟩ := execMovCrR_eq_next (m := m) h
  exact (show _ = u.dataPart from rfl).trans (crFreePart_dataPart.writeCr_keeps hwrite)

/-- A register that differs from a value after another was written did so before. -/
theorem State.getGpr_setGpr_ne {s : State} {r q : BitVec 4} {v w : Word} (h : (s.setGpr r v).getGpr q ≠ w) :
    q = r ∨ s.getGpr q ≠ w :=
  or_iff_not_imp_left.mpr fun hq => State.getGpr_setGpr_other s v hq ▸ h

/-- A general register that a write of EDX:EAX changes is one of the two. -/
theorem State.getGpr_setEdxEax_of_ne {s : State} {v : Word} {q : BitVec 4}
    (h : (s.setEdxEax v).getGpr q ≠ s.getGpr q) : q = 0#4 ∨ q = 2#4 :=
  (State.getGpr_setGpr_ne h).imp_right fun h => (State.getGpr_setGpr_ne h).resolve_right (absurd rfl)

/-- Flags, debug registers, memory, media state, XCR0 and the counters change only under the instructions named. -/
theorem exec_dataPart_frame {i : Instr} {s t : State} (h : exec i s = .next t) :
    (t.rflags ≠ s.rflags → i = .cli ∨ i = .sti) ∧
      (t.dr6 ≠ s.dr6 ∨ t.dr7 ≠ s.dr7 → ∃ m n r, i = .movDrR m n r) ∧
      (t.mem ≠ s.mem → (∃ op, i = .fxsave op) ∨ ∃ op, i = .xsave op) ∧
      (t.media ≠ s.media → (∃ op, i = .fxrstor op) ∨ ∃ op, i = .xrstor op) ∧
      (t.xcr0 ≠ s.xcr0 → i = .xsetbv) ∧
      (t.tsc ≠ s.tsc → i = .rdtsc ∨ i = .rdtscp) ∧ (t.perf ≠ s.perf → i = .rdpmc) := by
  cases i with
  | movRCr m n r =>
    obtain ⟨-, v, rfl, -⟩ := execMovRCr_eq_next (m := m) h
    simp [State.dstReg]
  | movCrR m n r =>
    have hkeep := execMovCrR_dataPart (m := m) h
    simp only [State.dataPart, Prod.mk.injEq] at hkeep
    simp [hkeep]
  | rdmsr => simp [(execRdmsr_eq_next h).2, State.setEdxEax, State.setReg32]
  | wrmsr => simp [(execWrmsr_eq_next h).2]
  | cli => obtain rfl | rfl := execCli_eq_next h <;> simp
  | sti => obtain rfl | rfl := execSti_eq_next h <;> simp
  | int i => simp [execInt_eq_next (i := i) h]
  | rdtsc =>
    obtain ⟨v, rfl⟩ := execRdtsc_eq_next h
    simp [State.setEdxEax, State.setReg32]
  | rdtscp =>
    obtain ⟨v, c, rfl⟩ := execRdtscp_eq_next h
    simp [State.setEdxEax, State.setReg32]
  | movRDr m n r =>
    obtain ⟨v, rfl, -⟩ := execMovRDr_eq_next (m := m) h
    simp [State.dstReg]
  | movDrR m n r => obtain rfl | rfl := execMovDrR_eq_next (m := m) h <;> simp
  | rdpmc =>
    obtain ⟨v, rfl⟩ := execRdpmc_eq_next h
    simp [State.setEdxEax, State.setReg32]
  | fxsave op => simp [execFxsave_eq_next h]
  | fxrstor op => simp [execFxrstor_eq_next h]
  | xgetbv =>
    obtain ⟨v, rfl⟩ := execXgetbv_eq_next h
    simp [State.setEdxEax, State.setReg32]
  | xsetbv => simp [(execXsetbv_eq_next h).2]
  | xsave op =>
    obtain ⟨f, n, rfl⟩ := execXsave_eq_next h
    simp
  | xrstor op => simp [execXrstor_eq_next h]
  | syscall => simp [(execSyscall_eq_next h).2]
  | sysret =>
    obtain ⟨-, -, rfl⟩ := execSysret_eq_next h
    simp
  | vmrun | vmmcall | vmload | vmsave | stgi | clgi | skinit | invlpga => simp [svm_eq_next h]
  | cpuid =>
    obtain ⟨a, b, c, d, rfl⟩ := execCpuid_eq_next h
    simp [State.setReg32]

/-- A general register changes only as the destination of a MOV or under an instruction that writes it by name. -/
theorem exec_getGpr_frame {i : Instr} {s t : State} (h : exec i s = .next t) (q : BitVec 4)
    (hq : t.getGpr q ≠ s.getGpr q) :
    (∃ m n, i = .movRCr m n q ∨ i = .movRDr m n q) ∨
      ((q = 0#4 ∨ q = 2#4) ∧ (i = .rdmsr ∨ i = .rdtsc ∨ i = .rdtscp ∨ i = .rdpmc ∨ i = .xgetbv)) ∨
      (q = 1#4 ∧ i = .rdtscp) ∨ (q.toNat ≤ 3 ∧ i = .cpuid) := by
  cases i with
  | movRCr m n r =>
    obtain ⟨-, v, rfl, -⟩ := execMovRCr_eq_next (m := m) h
    obtain rfl | hq := State.getGpr_setGpr_ne hq
    · exact .inl ⟨m, n, .inl rfl⟩
    · exact absurd rfl hq
  | movRDr m n r =>
    obtain ⟨v, rfl, -⟩ := execMovRDr_eq_next (m := m) h
    obtain rfl | hq := State.getGpr_setGpr_ne hq
    · exact .inl ⟨m, n, .inr rfl⟩
    · exact absurd rfl hq
  | movCrR m n r =>
    have hkeep := execMovCrR_dataPart (m := m) h
    simp only [State.dataPart, Prod.mk.injEq] at hkeep
    exact absurd (by simp [State.getGpr, hkeep]) hq
  | rdmsr =>
    obtain ⟨-, rfl⟩ := execRdmsr_eq_next h
    exact .inr (.inl ⟨State.getGpr_setEdxEax_of_ne hq, by simp⟩)
  | rdtsc =>
    obtain ⟨v, rfl⟩ := execRdtsc_eq_next h
    exact .inr (.inl ⟨State.getGpr_setEdxEax_of_ne hq, by simp⟩)
  | rdpmc =>
    obtain ⟨v, rfl⟩ := execRdpmc_eq_next h
    exact .inr (.inl ⟨State.getGpr_setEdxEax_of_ne hq, by simp⟩)
  | xgetbv =>
    obtain ⟨v, rfl⟩ := execXgetbv_eq_next h
    exact .inr (.inl ⟨State.getGpr_setEdxEax_of_ne hq, by simp⟩)
  | rdtscp =>
    obtain ⟨v, c, rfl⟩ := execRdtscp_eq_next h
    obtain h1 | hq := State.getGpr_setGpr_ne hq
    · exact .inr (.inr (.inl ⟨h1, rfl⟩))
    · exact .inr (.inl ⟨State.getGpr_setEdxEax_of_ne hq, by simp⟩)
  | cpuid =>
    obtain ⟨a, b, c, d, rfl⟩ := execCpuid_eq_next h
    refine .inr (.inr (.inr ⟨?_, rfl⟩))
    have hnumber : q = edx ∨ q = ecx ∨ q = ebx ∨ q = eax :=
      (State.getGpr_setGpr_ne hq).imp_right fun hq => (State.getGpr_setGpr_ne hq).imp_right fun hq =>
        (State.getGpr_setGpr_ne hq).imp_right fun hq => (State.getGpr_setGpr_ne hq).resolve_right (absurd rfl)
    obtain rfl | rfl | rfl | rfl := hnumber <;> decide
  | wrmsr => exact absurd (by simp [(execWrmsr_eq_next h).2]) hq
  | cli => exact absurd (by obtain rfl | rfl := execCli_eq_next h <;> simp) hq
  | sti => exact absurd (by obtain rfl | rfl := execSti_eq_next h <;> simp) hq
  | int i => exact absurd (by simp [execInt_eq_next (i := i) h]) hq
  | movDrR m n r => exact absurd (by obtain rfl | rfl := execMovDrR_eq_next (m := m) h <;> simp) hq
  | fxsave op => exact absurd (by simp [execFxsave_eq_next h]) hq
  | fxrstor op => exact absurd (by simp [execFxrstor_eq_next h]) hq
  | xsetbv => exact absurd (by simp [(execXsetbv_eq_next h).2]) hq
  | xsave op => exact absurd (by obtain ⟨f, n, rfl⟩ := execXsave_eq_next h; simp) hq
  | xrstor op => exact absurd (by simp [execXrstor_eq_next h]) hq
  | syscall => exact absurd (by simp [(execSyscall_eq_next h).2]) hq
  | sysret => exact absurd (by obtain ⟨-, -, rfl⟩ := execSysret_eq_next h; simp) hq
  | vmrun | vmmcall | vmload | vmsave | stgi | clgi | skinit | invlpga =>
    exact absurd (by simp [svm_eq_next h]) hq

/-- Settles O49: what no instruction writes, the control registers with the TLB, EFER, and the data, each by its
lemma. -/
theorem instructionFrames : Obligations.InstructionFrames := by
  intro i s t h
  obtain ⟨h0, h2, h3, htlb, h4⟩ := exec_pagingRegisters_frame h
  obtain ⟨hflags, hdr, hmem, hmedia, hxcr0, htsc, hperf⟩ := exec_dataPart_frame h
  have hefer (hne : t.efer ≠ s.efer) : i = .wrmsr ∨ ∃ m r, i = .movCrR m 0#4 r :=
    ((exec_efer h).resolve_left hne).symm
  exact ⟨exec_keeps_eventOnly h, h0, h2, h3, htlb, h4, hefer, hflags, hdr, hmem, hmedia, hxcr0, htsc, hperf,
    exec_getGpr_frame h⟩

end Sys2Proof.Machine

/-! The decoder against the encoder: how its three stages (legacy bytes, REX, opcode) read the bytes of a well-formed
instruction (30_encoding.md R101 to R107). -/

namespace Sys2Proof

/-! Legacy bytes and REX. -/

/-- The legacy bytes of 30_encoding.md R101. -/
def legacyBytes : List Byte :=
  [0xF0#8, 0x67#8, 0x66#8, 0xF2#8, 0xF3#8, 0x2E#8, 0x36#8, 0x3E#8, 0x26#8, 0x64#8, 0x65#8]

theorem addLegacy_of_not_mem (p : Legacy) {b : Byte} (h : b ∉ legacyBytes) : addLegacy p b = .none := by
  simp only [legacyBytes, List.mem_cons, List.not_mem_nil, or_false, not_or] at h
  simp [addLegacy, segOf, h]

@[simp] theorem addLegacy_segByte (p : Legacy) (g : Seg) : addLegacy p g.byte = some { p with seg := some g } := by
  cases g <;> rfl

/-- A REX byte is no legacy byte. -/
theorem rexByte_not_mem (x : BitVec 4) : 0x4#4 ++ x ∉ legacyBytes := by
  revert x; decide

theorem takeRex_rexByte (x : BitVec 4) (bs : List Byte) : takeRex .c64 ((0x4#4 ++ x) :: bs) = (some x, bs) := by
  have hhigh : (0x4#4 ++ x).extractLsb' 4 4 = 4#4 := by revert x; decide
  have hlow : (0x4#4 ++ x).extractLsb' 0 4 = x := by revert x; decide
  simp [takeRex, hhigh, hlow]

/-- A byte whose high half is not 4 is no REX byte. -/
theorem takeRex_stop (c : CodeSize) {b : Byte} (bs : List Byte) (h : b.extractLsb' 4 4 ≠ 4#4) :
    takeRex c (b :: bs) = (.none, b :: bs) := by
  simp [takeRex, h]

/-- The bytes an opcode begins with (30_encoding.md R104). -/
def opcodeBytes : List Byte := [0x0F#8, 0xFA#8, 0xFB#8, 0xCD#8]

theorem opcodeByte_not_mem {b : Byte} (h : b ∈ opcodeBytes) : b ∉ legacyBytes := by
  revert b; decide

theorem opcodeByte_not_rex {b : Byte} (h : b ∈ opcodeBytes) : b.extractLsb' 4 4 ≠ 4#4 := by
  revert b; decide

/-! What the stages read. -/

/-- From legacy state `l` on, the decoder's stages read `bs` as `i` followed by `rest`, meeting no LOCK byte. -/
def ReadsAs (c : CodeSize) (l : Legacy) (bs : List Byte) (i : Instr) (rest : List Byte) : Prop :=
  ∃ p bs1 rex bs2, scanLegacy l bs = (p, bs1) ∧ p.lock = l.lock ∧ takeRex c bs1 = (rex, bs2) ∧
    decodeOpcode (p.asz c) p.seg rex bs2 = .ok (i, rest)

section
variable {c : CodeSize} {l : Legacy} {bs bs' rest : List Byte} {i : Instr}

theorem checkLegacy_congr {p : Legacy} (h : p.lock = l.lock) (n : Nat) (i : Instr) :
    checkLegacy p n i = checkLegacy l n i := by
  simp [checkLegacy, h]

/-- Bytes whose scan comes to that of `bs`, and whose length and LOCK byte pass the check, decode as `bs` reads. -/
theorem ReadsAs.decode_ok (h : ReadsAs c l bs i rest) (hscan : scanLegacy .none bs' = scanLegacy l bs)
    (hcheck : checkLegacy l (bs'.length - rest.length) i = .none) : decode c bs' = .ok (i, rest) := by
  obtain ⟨p, bs1, rex, bs2, hs, hlock, hr, hop⟩ := h
  rw [decode_eq (hscan.trans hs) hr, hop]
  simp [checkLegacy_congr hlock, hcheck]

theorem ReadsAs.decode_error {e : DecodeError} (h : ReadsAs c l bs i rest)
    (hscan : scanLegacy .none bs' = scanLegacy l bs)
    (hcheck : checkLegacy l (bs'.length - rest.length) i = some e) : decode c bs' = .error e := by
  obtain ⟨p, bs1, rex, bs2, hs, hlock, hr, hop⟩ := h
  rw [decode_eq (hscan.trans hs) hr, hop]
  simp [checkLegacy_congr hlock, hcheck]

/-- A legacy byte other than LOCK before. -/
theorem ReadsAs.cons {b : Byte} {p : Legacy} (hb : addLegacy l b = some p) (hlock : p.lock = l.lock)
    (h : ReadsAs c p bs i rest) : ReadsAs c l (b :: bs) i rest := by
  obtain ⟨p', bs1, rex, bs2, hs, hl, hr, hop⟩ := h
  exact ⟨p', bs1, rex, bs2, by rw [scanLegacy, hb]; exact hs, hl.trans hlock, hr, hop⟩

/-- An opcode, with a REX byte before it or none, ends the legacy bytes. -/
theorem ReadsAs.of_decodeOpcode {rex : Option (BitVec 4)} {b : Byte} (hrex : rex.isNone = true ∨ c = .c64)
    (hb : b ∈ opcodeBytes) (h : decodeOpcode (l.asz c) l.seg rex (b :: bs) = .ok (i, rest)) :
    ReadsAs c l ((rex.map fun x => 0x4#4 ++ x).toList ++ b :: bs) i rest := by
  cases rex with
  | none =>
    exact ⟨l, _, _, _, scanLegacy_stop _ (addLegacy_of_not_mem l (opcodeByte_not_mem hb)), rfl,
      takeRex_stop c bs (opcodeByte_not_rex hb), h⟩
  | some x =>
    obtain rfl : c = .c64 := hrex.resolve_left (by simp)
    exact ⟨l, _, _, _, scanLegacy_stop _ (addLegacy_of_not_mem l (rexByte_not_mem x)), rfl,
      takeRex_rexByte x (b :: bs), h⟩

/-- The forms that are an opcode alone. -/
theorem ReadsAs.of_opcode {b : Byte} (hb : b ∈ opcodeBytes)
    (h : decodeOpcode (l.asz c) l.seg .none (b :: bs) = .ok (i, rest)) : ReadsAs c l (b :: bs) i rest :=
  ReadsAs.of_decodeOpcode (rex := .none) (.inl rfl) hb h

end

/-! Format `OP2_MODRM_REG`. -/

/-- The REX bits two register numbers need, if either does. -/
def rexOf (n r : BitVec 4) : Option (BitVec 4) :=
  if n.getLsbD 3 || r.getLsbD 3 then some (0#1 ++ BitVec.ofBool (n.getLsbD 3) ++ 0#1 ++ BitVec.ofBool (r.getLsbD 3))
  else .none

theorem rexBytes_eq (n r : BitVec 4) : rexBytes n r = ((rexOf n r).map fun x => 0x4#4 ++ x).toList := by
  unfold rexBytes rexOf
  split <;> rfl

theorem rexR_rexOf (n r : BitVec 4) : rexR (rexOf n r) = n.getLsbD 3 := by
  revert n r; decide

theorem rexB_rexOf (n r : BitVec 4) : rexB (rexOf n r) = r.getLsbD 3 := by
  revert n r; decide

theorem rexOf_of_fitsRegs {c : CodeSize} {n r : BitVec 4} (h : c.fitsRegs n r = true) :
    (rexOf n r).isNone = true ∨ c = .c64 := by
  cases hbits : n.getLsbD 3 || r.getLsbD 3 with
  | false => exact .inl (by simp only [rexOf, hbits]; rfl)
  | true =>
    rw [CodeSize.fitsRegs, hbits] at h
    exact .inr (by simpa using h)

theorem decodeRegForm_modRm (mk : BitVec 2 → BitVec 4 → BitVec 4 → Instr) (m : BitVec 2) (n r : BitVec 4)
    (rest : List Byte) :
    decodeRegForm mk (rexOf n r) (modRm m (low3 n) (low3 r) :: rest) = .ok (mk m n r, rest) := by
  simp only [decodeRegForm, modOf_modRm, regOf_modRm, rmOf_modRm, rexR_rexOf, rexB_rexOf, extendNumber_low3]

theorem encodeReg_readsAs {c : CodeSize} {l : Legacy} {op : Byte} {mk : BitVec 2 → BitVec 4 → BitVec 4 → Instr}
    (hop : regCtor op = some mk) (h01 : op ≠ 0x01#8) (hAE : op ≠ 0xAE#8) (m : BitVec 2) {n r : BitVec 4}
    (rest : List Byte) (hfits : c.fitsRegs n r = true) :
    ReadsAs c l (encodeReg op m n r ++ rest) (mk m n r) rest := by
  rw [encodeReg, rexBytes_eq, List.append_assoc]
  refine ReadsAs.of_decodeOpcode (rexOf_of_fitsRegs hfits) (by decide) ?_
  simp [decodeOpcode, decodeTwoByte, h01, hAE, hop, decodeRegForm_modRm]

/-! Format `OP2_MODRM_MEM`. -/

/-- The SIB and displacement bytes of a well-formed operand are those ModRM asks for. -/
theorem takeMemTail_of_wf {op : MemOperand} (h : op.wf = true) (rest : List Byte) :
    takeMemTail op.asz op.mod op.rm (op.sib.toList ++ (op.disp ++ rest)) = some (op.sib, op.disp, rest) := by
  simp only [MemOperand.wf, Bool.and_eq_true, beq_iff_eq] at h
  obtain ⟨⟨⟨-, hsib⟩, hdisp⟩, -⟩ := h
  unfold takeMemTail
  rw [← hsib]
  cases e : op.sib with
  | none => rw [e] at hdisp; simp [← hdisp, takeBytes_append]
  | some b => rw [e] at hdisp; simp [← hdisp, takeBytes_append]

theorem decodeMemForm_of_wf {op : MemOperand} {ext : BitVec 3} {mk : MemOperand → Instr} (hmk : memCtor ext = some mk)
    (h : op.wf = true) (rest : List Byte) :
    decodeMemForm op.asz op.seg op.rex (modRm op.mod ext op.rm :: (op.sib.toList ++ (op.disp ++ rest))) =
      .ok (mk op, rest) := by
  have hmod : op.mod ≠ 3#2 := by
    simp only [MemOperand.wf, Bool.and_eq_true, bne_iff_ne] at h
    obtain ⟨⟨⟨hmod, -⟩, -⟩, -⟩ := h
    exact hmod
  simp [decodeMemForm, hmod, hmk, takeMemTail_of_wf h]

theorem encodeMem_readsAs {c : CodeSize} {ext : BitVec 3} {mk : MemOperand → Instr} (hmk : memCtor ext = some mk)
    {op : MemOperand} (hwf : op.wf = true) (hfits : op.fits c = true) (lock : Bool) (rest : List Byte) :
    ReadsAs c ⟨lock, false, .none⟩ (encodeMem c ext op ++ rest) (mk op) rest := by
  have hrex : op.rex.isNone = true ∨ c = .c64 := by
    simp only [MemOperand.fits, Bool.and_eq_true, Bool.or_eq_true, beq_iff_eq] at hfits
    exact hfits.1
  have hopcode (a : Bool) (ha : (if a then c.otherAddrSize else c.addrSize) = op.asz) :
      ReadsAs c ⟨lock, a, op.seg⟩ ((op.rex.map fun x => 0x4#4 ++ x).toList ++
        0x0F#8 :: 0xAE#8 :: modRm op.mod ext op.rm :: (op.sib.toList ++ (op.disp ++ rest))) (mk op) rest := by
    refine ReadsAs.of_decodeOpcode hrex (by decide) ?_
    simp [Legacy.asz, ha, decodeOpcode, decodeTwoByte, decodeMemForm_of_wf hmk hwf]
  have hseg (a : Bool) (ha : (if a then c.otherAddrSize else c.addrSize) = op.asz) :
      ReadsAs c ⟨lock, a, .none⟩ ((op.seg.map Seg.byte).toList ++ ((op.rex.map fun x => 0x4#4 ++ x).toList ++
        0x0F#8 :: 0xAE#8 :: modRm op.mod ext op.rm :: (op.sib.toList ++ (op.disp ++ rest)))) (mk op) rest := by
    have h := hopcode a ha
    cases e : op.seg with
    | none => rwa [e] at h
    | some g => rw [e] at h; exact h.cons (addLegacy_segByte _ g) rfl
  have hbytes : encodeMem c ext op ++ rest = (if op.asz = c.addrSize then [] else [0x67#8]) ++
      ((op.seg.map Seg.byte).toList ++ ((op.rex.map fun x => 0x4#4 ++ x).toList ++
        0x0F#8 :: 0xAE#8 :: modRm op.mod ext op.rm :: (op.sib.toList ++ (op.disp ++ rest)))) := by
    simp [encodeMem]
  have hasz := asz_of_fits hfits
  rw [hbytes]
  split at hasz
  · rw [if_pos ‹_›]
    exact hseg false hasz.symm
  · rw [if_neg ‹_›]
    exact (hseg true hasz.symm).cons rfl rfl

/-! Every instruction. -/

theorem encode_readsAs {c : CodeSize} {i : Instr} (hwf : i.wf = true) (hfits : i.fits c = true) (lock : Bool)
    (rest : List Byte) : ReadsAs c ⟨lock, false, .none⟩ (encode c i ++ rest) i rest := by
  cases i with
  | movRCr m n r | movCrR m n r | movRDr m n r | movDrR m n r =>
    exact encodeReg_readsAs rfl (by decide) (by decide) m rest hfits
  | fxsave op | fxrstor op | xsave op | xrstor op => exact encodeMem_readsAs rfl hwf hfits lock rest
  | _ => exact ReadsAs.of_opcode (by decide) rfl

theorem encode_length {i : Instr} (hwf : i.wf = true) (c : CodeSize) :
    1 ≤ (encode c i).length ∧ (encode c i).length ≤ 15 := by
  cases i with
  | movRCr m n r | movCrR m n r | movRDr m n r | movDrR m n r => exact Laws.EncodedLength.regForm _ m n r
  | fxsave op | fxrstor op | xsave op | xrstor op => exact Laws.EncodedLength.memForm c _ op hwf
  | _ => simp [encode]

/-- Settles O54: the stages read the encoding as the instruction, and it has at most 15 bytes, with no LOCK byte. -/
theorem decodeOfEncode : Obligations.DecodeOfEncode := by
  intro c i rest hwf hfits
  obtain ⟨-, hlen⟩ := encode_length hwf c
  refine (encode_readsAs hwf hfits false rest).decode_ok rfl ?_
  simp [checkLegacy, hlen]

end Sys2Proof

/-! What the decoder answers is well-formed, and a decoded head is run by the step (30_encoding.md R101, R106, R107). -/

namespace Sys2Proof

/-- `i` was read from the head of `bs`, leaving `rest`, and could be encoded in the code `c`. -/
structure WellRead (c : CodeSize) (bs : List Byte) (i : Instr) (rest : List Byte) : Prop where
  wf : i.wf = true
  fits : i.fits c = true
  head : ∃ head, bs = head ++ rest ∧ 1 ≤ head.length

section
variable {c : CodeSize} {bs rest : List Byte} {i : Instr} {asz : AddrSize} {seg : Option Seg}
  {rex : Option (BitVec 4)}

theorem WellRead.append (h : WellRead c bs i rest) (pre : List Byte) : WellRead c (pre ++ bs) i rest := by
  obtain ⟨head, rfl, hlen⟩ := h.head
  exact ⟨h.wf, h.fits, pre ++ head, by simp, by simp; omega⟩

theorem WellRead.cons (h : WellRead c bs i rest) (b : Byte) : WellRead c (b :: bs) i rest :=
  h.append [b]

/-- An instruction with no operand to check, read from one byte. -/
theorem WellRead.of_byte (hwf : i.wf = true) (hfits : i.fits c = true) (b : Byte) : WellRead c (b :: rest) i rest :=
  ⟨hwf, hfits, [b], rfl, Nat.le_refl 1⟩

/-! The operand forms. -/

theorem regCtor_wf_fits {b : Byte} {mk : BitVec 2 → BitVec 4 → BitVec 4 → Instr} (h : regCtor b = some mk)
    (m : BitVec 2) (n r : BitVec 4) : (mk m n r).wf = true ∧ (mk m n r).fits c = c.fitsRegs n r := by
  unfold regCtor at h
  split at h; · cases h; exact ⟨rfl, rfl⟩
  split at h; · cases h; exact ⟨rfl, rfl⟩
  split at h; · cases h; exact ⟨rfl, rfl⟩
  split at h; · cases h; exact ⟨rfl, rfl⟩
  cases h

theorem memCtor_wf_fits {ext : BitVec 3} {mk : MemOperand → Instr} (h : memCtor ext = some mk) (op : MemOperand) :
    (mk op).wf = op.wf ∧ (mk op).fits c = op.fits c := by
  unfold memCtor at h
  split at h; · cases h; exact ⟨rfl, rfl⟩
  split at h; · cases h; exact ⟨rfl, rfl⟩
  split at h; · cases h; exact ⟨rfl, rfl⟩
  split at h; · cases h; exact ⟨rfl, rfl⟩
  cases h

/-- The fourth bit of a number read from ModRM is the one REX gives. -/
theorem getLsbD_extendNumber (hi : Bool) (f : BitVec 3) : (extendNumber hi f).getLsbD 3 = hi := by
  revert hi f; decide

theorem fitsRegs_of_rex (hrex : rex.isNone = true ∨ c = .c64) (n r : BitVec 3) :
    c.fitsRegs (extendNumber (rexR rex) n) (extendNumber (rexB rex) r) = true := by
  rw [CodeSize.fitsRegs, getLsbD_extendNumber, getLsbD_extendNumber]
  obtain hnone | rfl := hrex
  · rw [Option.isNone_iff_eq_none] at hnone
    subst hnone
    rfl
  · simp

theorem decodeRegForm_wellRead {b : Byte} {mk : BitVec 2 → BitVec 4 → BitVec 4 → Instr} (hmk : regCtor b = some mk)
    (hrex : rex.isNone = true ∨ c = .c64) (h : decodeRegForm mk rex bs = .ok (i, rest)) : WellRead c bs i rest := by
  cases bs with
  | nil => cases h
  | cons x xs =>
    cases h
    obtain ⟨hwf, hfits⟩ := regCtor_wf_fits (c := c) hmk (modOf x) (extendNumber (rexR rex) (regOf x))
      (extendNumber (rexB rex) (rmOf x))
    exact .of_byte hwf (hfits.trans (fitsRegs_of_rex hrex _ _)) x

theorem takeBytes_eq_some {n : Nat} {l : List Byte} (h : takeBytes n bs = some (l, rest)) :
    l.length = n ∧ bs = l ++ rest := by
  unfold takeBytes at h
  split at h
  · cases h
  · cases h
    exact ⟨by simp; omega, (List.take_append_drop n bs).symm⟩

/-- The SIB and displacement bytes taken are those ModRM asks for. -/
theorem takeMemTail_eq_some {mod : BitVec 2} {rm : BitVec 3} {sib : Option Byte} {disp : List Byte}
    (h : takeMemTail asz mod rm bs = some (sib, disp, rest)) :
    sib.isSome = MemOperand.hasSib asz rm ∧ disp.length = MemOperand.dispBytes asz mod rm sib ∧
      bs = sib.toList ++ disp ++ rest := by
  unfold takeMemTail at h
  split at h
  · rename_i hsib
    cases bs with
    | nil => cases h
    | cons b bs =>
      obtain ⟨p, hp, e⟩ := Option.map_eq_some_iff.mp h
      cases e
      obtain ⟨hlen, rfl⟩ := takeBytes_eq_some hp
      exact ⟨hsib.symm, hlen, rfl⟩
  · rename_i hsib
    obtain ⟨p, hp, e⟩ := Option.map_eq_some_iff.mp h
    cases e
    obtain ⟨hlen, rfl⟩ := takeBytes_eq_some hp
    exact ⟨(Bool.eq_false_of_not_eq_true hsib).symm, hlen, rfl⟩

theorem decodeMemForm_wellRead (hrex : rex.isNone = true ∨ c = .c64) (hasz : asz = c.addrSize ∨ asz = c.otherAddrSize)
    (h : decodeMemForm asz seg rex bs = .ok (i, rest)) : WellRead c bs i rest := by
  cases bs with
  | nil => cases h
  | cons b bs =>
    simp only [decodeMemForm] at h
    split at h; · cases h
    rename_i hmod
    split at h; · cases h
    rename_i mk hmk
    split at h; · cases h
    rename_i t htail
    cases h
    obtain ⟨hsib, hdisp, rfl⟩ := takeMemTail_eq_some htail
    have hasz16 : rex.isNone = true ∨ asz ≠ .a16 := by
      refine hrex.imp_right ?_
      rintro rfl
      obtain rfl | rfl := hasz <;> decide
    obtain ⟨hwf, hfits⟩ := memCtor_wf_fits (c := c) hmk ⟨asz, seg, rex, modOf b, rmOf b, t.1, t.2.1⟩
    refine ⟨hwf.trans ?_, hfits.trans ?_, b :: (t.1.toList ++ t.2.1), rfl, by simp⟩
    · simpa [MemOperand.wf, hmod, hsib, hdisp] using hasz16
    · simpa [MemOperand.fits, hasz] using hrex

/-! The opcodes. -/

/-- An instruction with no operand to check. -/
def Instr.plain (i : Instr) : Prop := i.wf = true ∧ ∀ c, i.fits c = true

theorem plain_of_lookup {rows : List (Byte × Instr)} {b : Byte} (hrows : ∀ p ∈ rows, p.2.plain)
    (h : rows.lookup b = some i) : i.plain := by
  obtain ⟨l, l', rfl, -⟩ := List.lookup_eq_some_iff.mp h
  exact hrows (b, i) (by simp)

theorem op2Rows_plain : ∀ p ∈ op2Rows, p.2.plain := by
  simp [op2Rows, Instr.plain, Instr.wf, Instr.fits]

theorem op3Rows_plain : ∀ p ∈ op3Rows, p.2.plain := by
  simp [op3Rows, Instr.plain, Instr.wf, Instr.fits]

theorem decodeOp3_wellRead (h : decodeOp3 bs = .ok (i, rest)) : WellRead c bs i rest := by
  cases bs with
  | nil => cases h
  | cons b bs =>
    simp only [decodeOp3] at h
    split at h
    · rename_i j hrow
      cases h
      obtain ⟨hwf, hfits⟩ := plain_of_lookup op3Rows_plain hrow
      exact .of_byte hwf (hfits c) b
    · cases h

theorem decodeTwoByte_wellRead (hrex : rex.isNone = true ∨ c = .c64)
    (hasz : asz = c.addrSize ∨ asz = c.otherAddrSize) (h : decodeTwoByte asz seg rex bs = .ok (i, rest)) :
    WellRead c bs i rest := by
  cases bs with
  | nil => cases h
  | cons b bs =>
    simp only [decodeTwoByte] at h
    split at h; · exact (decodeOp3_wellRead h).cons b
    split at h; · exact (decodeMemForm_wellRead hrex hasz h).cons b
    split at h
    · rename_i mk hmk
      exact (decodeRegForm_wellRead hmk hrex h).cons b
    · split at h
      · rename_i j hrow
        cases h
        obtain ⟨hwf, hfits⟩ := plain_of_lookup op2Rows_plain hrow
        exact .of_byte hwf (hfits c) b
      · cases h

theorem decodeInt_wellRead (h : decodeInt bs = .ok (i, rest)) : WellRead c bs i rest := by
  cases bs with
  | nil => cases h
  | cons b bs =>
    cases h
    exact .of_byte rfl rfl b

theorem decodeOpcode_wellRead (hrex : rex.isNone = true ∨ c = .c64)
    (hasz : asz = c.addrSize ∨ asz = c.otherAddrSize) (h : decodeOpcode asz seg rex bs = .ok (i, rest)) :
    WellRead c bs i rest := by
  cases bs with
  | nil => cases h
  | cons b bs =>
    simp only [decodeOpcode] at h
    split at h; · cases h; exact .of_byte rfl rfl b
    split at h; · cases h; exact .of_byte rfl rfl b
    split at h; · exact (decodeInt_wellRead h).cons b
    split at h; · exact (decodeTwoByte_wellRead hrex hasz h).cons b
    cases h

/-! Legacy bytes and REX. -/

/-- The scan takes bytes off the head. -/
theorem scanLegacy_append (p : Legacy) (bs : List Byte) : ∃ pre, bs = pre ++ (scanLegacy p bs).2 := by
  induction bs generalizing p with
  | nil => exact ⟨[], rfl⟩
  | cons b bs ih =>
    rw [scanLegacy]
    split
    · rename_i p' _
      obtain ⟨pre, e⟩ := ih p'
      exact ⟨b :: pre, congrArg (b :: ·) e⟩
    · exact ⟨[], rfl⟩

/-- REX is taken off the head, in 64-bit mode only. -/
theorem takeRex_append (c : CodeSize) (bs : List Byte) :
    ((takeRex c bs).1.isNone = true ∨ c = .c64) ∧ ∃ pre, bs = pre ++ (takeRex c bs).2 := by
  cases bs with
  | nil => exact ⟨.inl rfl, [], rfl⟩
  | cons b bs =>
    rw [takeRex]
    split
    · rename_i h
      rw [Bool.and_eq_true, beq_iff_eq] at h
      exact ⟨.inr h.1, [b], rfl⟩
    · exact ⟨.inl rfl, [], rfl⟩

theorem Legacy.asz_cases (p : Legacy) (c : CodeSize) : p.asz c = c.addrSize ∨ p.asz c = c.otherAddrSize := by
  unfold Legacy.asz
  split
  · exact .inr rfl
  · exact .inl rfl

/-- What the decoder answers was read within the length check. -/
theorem decode_wellRead (h : decode c bs = .ok (i, rest)) :
    WellRead c bs i rest ∧ bs.length - rest.length ≤ 15 := by
  unfold decode at h
  split at h; · cases h
  rename_i q hop
  split at h; · cases h
  rename_i hcheck
  cases h
  obtain ⟨hrex, pre', hpre'⟩ := takeRex_append c (scanLegacy .none bs).2
  obtain ⟨pre, hpre⟩ := scanLegacy_append .none bs
  refine ⟨?_, ?_⟩
  · rw [hpre, hpre']
    exact ((decodeOpcode_wellRead hrex (Legacy.asz_cases _ c) hop).append pre').append pre
  · unfold checkLegacy at hcheck
    split at hcheck
    · cases hcheck
    · exact Nat.not_lt.mp ‹_›

end

/-- Settles O55: each stage of the decoder takes bytes off the head, and the operand forms read what ModRM asks for. -/
theorem decodedIsWellFormed : Obligations.DecodedIsWellFormed := by
  intro c bs rest i h
  obtain ⟨hread, hlen⟩ := decode_wellRead h
  obtain ⟨head, rfl, hpos⟩ := hread.head
  exact ⟨hread.wf, hread.fits, head, rfl, hpos, by simpa using hlen⟩

/-- Settles O57: the six words, by evaluation. -/
theorem tableWordsDecode : Obligations.TableWordsDecode := by
  unfold Obligations.TableWordsDecode
  decide

end Sys2Proof

namespace Sys2Proof.Machine

/-! The step at the processor's turn. -/

theorem runInstruction_of_decode {s : State} {i : Instr} {rest : List Byte} (hne : s.code ≠ [])
    (h : decode s.codeSize s.code = .ok (i, rest)) : runInstruction s = exec i (s.setCode rest) := by
  rw [runInstruction, fetch_of_decode hne h, andThen_next]

theorem step_of_processor {s : State} (hraised : s.raised = none) (hsched : s.schedule = []) :
    step s = runInstruction s := by
  simp [step, hraised, hsched]

theorem step_of_turn {s : State} {x : Turn} {xs : List Turn} (hraised : s.raised = none)
    (hsched : s.schedule = x :: xs) : step s = takeTurn x (s.setSchedule xs) := by
  simp [step, hraised, hsched]

theorem step_of_raised {s : State} {f : Fault} (h : s.raised = some f) : step s = .fault f := by
  rw [step, h]

/-- Settles O58. -/
theorem stepRunsDecoded : Obligations.StepRunsDecoded := by
  intro s i rest hraised hne h
  refine ⟨fun hsched => ?_, fun ts hsched => ?_⟩
  · rw [step_of_processor hraised hsched, runInstruction_of_decode hne h]
  · rw [step_of_turn hraised hsched]
    exact runInstruction_of_decode hne h

/-- Settles O59. -/
theorem runEnds : Obligations.RunEnds := by
  refine fun s => ⟨fun hraised hsched hcode => ?_, fun _ => step_of_raised⟩
  rw [step_of_processor hraised hsched, runInstruction, fetch, hcode]
  rfl

/-! Bytes that do not decode. -/

theorem andThen_lockOutcome {α β : Type} (i : Instr) (k : α → Result β) :
    andThen (lockOutcome i) k = lockOutcome i := by
  cases i with
  | movRCr m n r | movCrR m n r => cases h : Config.lockReachesCr8 <;> simp [lockOutcome, h, raise]
  | _ => rfl

theorem andThen_decodeErrorOutcome {α β : Type} (e : DecodeError) (k : α → Result β) :
    andThen (decodeErrorOutcome e) k = decodeErrorOutcome e := by
  cases e with
  | lockForm i => exact andThen_lockOutcome i k
  | _ => rfl

/-- A step at a head that does not decode. -/
theorem step_of_decode_error {s : State} {e : DecodeError} (hraised : s.raised = none) (hsched : s.schedule = [])
    (hne : s.code ≠ []) (h : decode s.codeSize s.code = .error e) : step s = decodeErrorOutcome e := by
  obtain ⟨b, bs, hcode⟩ := List.exists_cons_of_ne_nil hne
  rw [hcode] at h
  have hfetch : fetch s = decodeErrorOutcome e := by simp [fetch, hcode, h]
  rw [step_of_processor hraised hsched, runInstruction, hfetch, andThen_decodeErrorOutcome]

theorem lockOutcome_of_not_movCr {α : Type} {i : Instr} (h : ∀ m n r, i ≠ .movRCr m n r ∧ i ≠ .movCrR m n r) :
    (lockOutcome i : Result α) = .fault .invalidOpcode := by
  cases i with
  | movRCr m n r => exact absurd rfl (h m n r).1
  | movCrR m n r => exact absurd rfl (h m n r).2
  | _ => rfl

theorem lockOutcome_cases {α : Type} (i : Instr) :
    (lockOutcome i : Result α) = .fault .invalidOpcode ∨ (lockOutcome i : Result α) = .refused .lockReachesCr8 := by
  cases i with
  | movRCr m n r | movCrR m n r => cases h : Config.lockReachesCr8 <;> simp [lockOutcome, h, raise]
  | _ => exact .inl rfl

/-- 0F AE with `mod` = 11 is no row (30_encoding.md R106). -/
theorem decode_fxRow_mod3 (c : CodeSize) {b : Byte} (rest : List Byte) (h : b.extractLsb' 6 2 = 3#2) :
    decode c (0x0F#8 :: 0xAE#8 :: b :: rest) = .error .notInSpec := by
  rw [decode_eq (scanLegacy_stop _ rfl) (takeRex_stop c _ (by decide))]
  have hmod : modOf b = 3#2 := h
  simp [decodeOpcode, decodeTwoByte, decodeMemForm, hmod]

/-- A LOCK byte and operand-size bytes are legacy bytes: the scan goes on past them with LOCK seen. -/
theorem scanLegacy_lock (k : Nat) (bs : List Byte) :
    scanLegacy .none (0xF0#8 :: (List.replicate k 0x66#8 ++ bs)) = scanLegacy ⟨true, false, .none⟩ bs := by
  have hpad (p : Legacy) : scanLegacy p (List.replicate k 0x66#8 ++ bs) = scanLegacy p bs := by
    induction k with
    | zero => rfl
    | succ k ih => exact ih
  exact hpad _

/-- Settles O56: the stages read the locked bytes as the instruction, and the length check comes first. -/
theorem illegalEncodings : Obligations.IllegalEncodings := by
  refine ⟨fun c b rest h => decode_fxRow_mod3 c rest h, fun s i k rest hwf hfits hraised hsched hcode => ?_⟩
  have hlength : s.code.length - rest.length = 1 + k + (encode s.codeSize i).length := by
    rw [hcode]
    simp
    omega
  have hstep (e : DecodeError)
      (he : checkLegacy ⟨true, false, .none⟩ (1 + k + (encode s.codeSize i).length) i = some e) :
      step s = decodeErrorOutcome e := by
    refine step_of_decode_error hraised hsched (by simp [hcode]) ?_
    refine (encode_readsAs hwf hfits true rest).decode_error ?_ (hlength.symm ▸ he)
    rw [hcode, scanLegacy_lock]
  refine ⟨fun hle => ?_, fun hlt => ?_⟩
  · have hlock : step s = lockOutcome i := hstep (.lockForm i) (by simp [checkLegacy, hle])
    rw [hlock]
    exact ⟨lockOutcome_of_not_movCr, fun _ => lockOutcome_cases i⟩
  · exact hstep .tooLong (by simp [checkLegacy, hlt])

end Sys2Proof.Machine

/-! Control-register access, forward: when MOV r,CRn and MOV CRn,r complete, what they write and what stops them
(40_cr_access.md R110 to R122). -/

namespace Sys2Proof.Machine

/-! The privilege check and the moves. -/

theorem requireCpl0_of_zero {α : Type} {s : State} (o : Result α) (h : s.cpl = 0) : requireCpl0 s o = o := by
  simp [requireCpl0, h]

theorem requireCpl0_of_ne {α : Type} {s : State} (o : Result α) (h : s.cpl ≠ 0) :
    requireCpl0 s o = .fault .notPermitted := by
  simp [requireCpl0, h, raise]

section
variable {m : BitVec 2} {n r : BitVec 4} {s : State}

theorem execMovRCr_of_next {v : Word} (h : readCr n.toNat s = .next v) :
    exec (.movRCr m n r) s = .next ((s.setGpr r (if s.mode64 then v else zext64 (low32 v))).setAnswer (.value v)) := by
  simp [exec, execMovRCr, h, State.dstReg, State.giveValue]

theorem execMovRCr_of_fault {f : Fault} (h : readCr n.toNat s = .fault f) : exec (.movRCr m n r) s = .fault f := by
  simp [exec, execMovRCr, h]

theorem execMovRCr_of_refused {e : Refusal} (h : readCr n.toNat s = .refused e) :
    exec (.movRCr m n r) s = .refused e := by
  simp [exec, execMovRCr, h]

theorem execMovCrR_of_next {t : State} (h : writeCr n.toNat (s.srcReg r) s = .next t) :
    exec (.movCrR m n r) s = .next (t.setAnswer .nothing) := by
  simp [exec, execMovCrR, h, State.done]

theorem execMovCrR_of_fault {f : Fault} (h : writeCr n.toNat (s.srcReg r) s = .fault f) :
    exec (.movCrR m n r) s = .fault f := by
  simp [exec, execMovCrR, h]

theorem execMovCrR_of_refused {e : Refusal} (h : writeCr n.toNat (s.srcReg r) s = .refused e) :
    exec (.movCrR m n r) s = .refused e := by
  simp [exec, execMovCrR, h]

end

/-! Reads. -/

/-- Settles O1. -/
theorem movFromControlRegister : Obligations.MovFromControlRegister := by
  intro s m r n v hn
  have hread : readCr n.toNat s = requireCpl0 s (.next v) := by
    simp only [List.mem_cons, Prod.mk.injEq, List.not_mem_nil, or_false] at hn
    obtain ⟨rfl, rfl⟩ | ⟨rfl, rfl⟩ | ⟨rfl, rfl⟩ | ⟨rfl, rfl⟩ := hn <;> rfl
  exact ⟨fun h0 => execMovRCr_of_next (hread.trans (requireCpl0_of_zero _ h0)),
    fun hne => execMovRCr_of_fault (hread.trans (requireCpl0_of_ne _ hne))⟩

/-! CR0. -/

section
variable {s : State} {v : Word}

theorem writeCr0_of_checks (hcpl : s.cpl = 0) (hhigh : high32 v = 0#32)
    (hpe : v.getLsbD 31 = true → v.getLsbD 0 = true)
    (hpae : v.getLsbD 31 = true → s.pg = false → s.lme = true → s.pae = true)
    (h64 : v.getLsbD 31 = false → s.pg = true → s.mode64 = false) : writeCr0 v s = .next (s.afterCr0 v) := by
  have h1 : ¬ (v.getLsbD 31 && !v.getLsbD 0) = true := by simpa using hpe
  have h2 : ¬ (v.getLsbD 31 && !s.pg && s.lme && !s.pae) = true := by simpa using hpae
  have h3 : ¬ (!v.getLsbD 31 && s.pg && s.mode64) = true := by simpa using h64
  rw [writeCr0, requireCpl0_of_zero _ hcpl, if_neg (not_not.mpr hhigh), if_neg h1, if_neg h2, if_neg h3]

end

/-- The bits of CR0 after the write. -/
theorem State.getLsbD_afterCr0_cr0 (s : State) (v : Word) (k : Nat) :
    (s.afterCr0 v).cr0.getLsbD k = if k = 4 then s.cr0.getLsbD 4 else v.getLsbD k :=
  getLsbD_withBit v 4 (s.cr0.getLsbD 4) k (by decide)

theorem State.getLsbD_afterCr0_efer (s : State) (v : Word) (k : Nat) :
    (s.afterCr0 v).efer.getLsbD k = if k = 10 then s.lme && v.getLsbD 31 else s.efer.getLsbD k :=
  getLsbD_withBit s.efer 10 (s.lme && v.getLsbD 31) k (by decide)

/-- Settles O2. -/
theorem movToCr0Completes : Obligations.MovToCr0Completes := by
  rintro s m r v rfl hcpl hhigh hpe hpae h64
  exact ⟨_, execMovCrR_of_next (n := 0#4) (writeCr0_of_checks hcpl hhigh hpe hpae h64),
    fun k _ => s.getLsbD_afterCr0_cr0 _ k, fun k _ => s.getLsbD_afterCr0_efer _ k, rfl⟩

section
variable {s : State} {v : Word} (hcpl : s.cpl = 0)
include hcpl

theorem writeCr0_of_high (hhigh : high32 v ≠ 0#32) : writeCr0 v s = .refused .reservedBits := by
  rw [writeCr0, requireCpl0_of_zero _ hcpl, if_pos hhigh]

theorem writeCr0_of_pg_without_pe (hhigh : high32 v = 0#32) (hpg : v.getLsbD 31 = true) (hpe : v.getLsbD 0 = false) :
    writeCr0 v s = .fault .notPermitted := by
  rw [writeCr0, requireCpl0_of_zero _ hcpl, if_neg (not_not.mpr hhigh), hpg, hpe]
  rfl

theorem writeCr0_of_pg_without_pae (hhigh : high32 v = 0#32) (hpg : v.getLsbD 31 = true) (hpe : v.getLsbD 0 = true)
    (hs : s.pg = false) (hlme : s.lme = true) (hpae : s.pae = false) : writeCr0 v s = .fault .notPermitted := by
  rw [writeCr0, requireCpl0_of_zero _ hcpl, if_neg (not_not.mpr hhigh), hpg, hpe, hs, hlme, hpae]
  rfl

theorem writeCr0_of_leaving_mode64 (hhigh : high32 v = 0#32) (hpg : v.getLsbD 31 = false) (hs : s.pg = true)
    (h64 : s.mode64 = true) : writeCr0 v s = .refused .leavingLongModeFrom64BitMode := by
  rw [writeCr0, requireCpl0_of_zero _ hcpl, if_neg (not_not.mpr hhigh), hpg, hs, h64]
  rfl

end

/-- Settles O3: each check in turn, those before it passed. -/
theorem movToCr0Stops : Obligations.MovToCr0Stops := by
  rintro s m r v rfl
  exact ⟨fun hcpl => execMovCrR_of_fault (n := 0#4) (requireCpl0_of_ne _ hcpl),
    fun hcpl hhigh => execMovCrR_of_refused (n := 0#4) (writeCr0_of_high hcpl hhigh),
    fun hcpl hhigh hpg hpe => execMovCrR_of_fault (n := 0#4) (writeCr0_of_pg_without_pe hcpl hhigh hpg hpe),
    fun hcpl hhigh hpg hpe hs hlme hpae =>
      execMovCrR_of_fault (n := 0#4) (writeCr0_of_pg_without_pae hcpl hhigh hpg hpe hs hlme hpae),
    fun hcpl hhigh hpg hs h64 =>
      execMovCrR_of_refused (n := 0#4) (writeCr0_of_leaving_mode64 hcpl hhigh hpg hs h64)⟩

/-! CR2. -/

/-- Settles O4. -/
theorem movToCr2 : Obligations.MovToCr2 := fun _ _ _ =>
  ⟨fun hcpl => execMovCrR_of_next (n := 2#4) (requireCpl0_of_zero _ hcpl),
    fun hcpl => execMovCrR_of_fault (n := 2#4) (requireCpl0_of_ne _ hcpl)⟩

/-! CR3. -/

theorem writeCr3_of_checks {s : State} {v : Word} (hcpl : s.cpl = 0) (hlma : s.lma = false)
    (hhigh : high32 v = 0#32) (hlow : v.extractLsb' 0 3 = 0#3) (hpae : s.pae = false → v.extractLsb' 5 7 = 0#7) :
    writeCr3 v s = .next ((s.setCr3 v).setTlb s.tlbAfterCr3) := by
  have h1 : ¬ (!s.pae && v.extractLsb' 5 7 != 0#7) = true := by simpa using hpae
  rw [writeCr3, requireCpl0_of_zero _ hcpl, if_neg (by simp [hlma]), if_neg (not_not.mpr hhigh),
    if_neg (not_not.mpr hlow), if_neg h1]

theorem State.mem_tlbAfterCr3 {s : State} {e : TlbEntry} :
    e ∈ s.tlbAfterCr3 ↔ e ∈ s.tlb ∧ e.isGlobal = true ∧ s.pge = true := by
  unfold State.tlbAfterCr3
  split <;> simp [*]

/-- Settles O5. -/
theorem movToCr3Completes : Obligations.MovToCr3Completes := by
  rintro s m r v rfl hcpl hlma hhigh hlow hpae
  exact ⟨_, execMovCrR_of_next (n := 3#4) (writeCr3_of_checks hcpl hlma hhigh hlow hpae), rfl,
    fun _ => State.mem_tlbAfterCr3, rfl⟩

/-- A value with a reserved bit of CR3 set is refused. -/
theorem writeCr3_reservedBits {s : State} {v : Word} (hcpl : s.cpl = 0) (hlma : s.lma = false)
    (h : high32 v ≠ 0#32 ∨ v.extractLsb' 0 3 ≠ 0#3 ∨ (s.pae = false ∧ v.extractLsb' 5 7 ≠ 0#7)) :
    writeCr3 v s = .refused .reservedBits := by
  rw [writeCr3, requireCpl0_of_zero _ hcpl, if_neg (by simp [hlma])]
  split; · rfl
  rename_i hhigh
  split; · rfl
  rename_i hlow
  obtain ⟨hpae, hunnamed⟩ := (h.resolve_left hhigh).resolve_left hlow
  rw [if_pos (by simp [hpae, hunnamed])]

/-- Settles O6. -/
theorem movToCr3Stops : Obligations.MovToCr3Stops := by
  rintro s m r v rfl
  refine ⟨fun hcpl => execMovCrR_of_fault (n := 3#4) (requireCpl0_of_ne _ hcpl), fun hcpl hlma => ?_,
    fun hcpl hlma h => execMovCrR_of_refused (n := 3#4) (writeCr3_reservedBits hcpl hlma h)⟩
  exact execMovCrR_of_refused (n := 3#4) ((requireCpl0_of_zero _ hcpl).trans (if_pos hlma))

/-! CR4. -/

theorem writeCr4_of_checks {s : State} {v : Word} (hcpl : s.cpl = 0) (hnamed : v &&& ~~~cr4Named = 0#64)
    (hxsave : v.getLsbD 18 = true → s.params.hasXsave = true) (hpae : s.lma = true → v.getLsbD 5 = true) :
    writeCr4 v s = .next ((s.setCr4 v).setCr3 (cr3Under v s.cr3)) := by
  have h1 : ¬ (v.getLsbD 18 && !s.params.hasXsave) = true := by simpa using hxsave
  have h2 : ¬ (s.lma && !v.getLsbD 5) = true := by simpa using hpae
  rw [writeCr4, requireCpl0_of_zero _ hcpl, if_neg (not_not.mpr hnamed), if_neg h1, if_neg h2]

/-- Settles O7. -/
theorem movToCr4Completes : Obligations.MovToCr4Completes := by
  rintro s m r v rfl hcpl hnamed hxsave hpae
  exact ⟨_, execMovCrR_of_next (n := 4#4) (writeCr4_of_checks hcpl hnamed hxsave hpae), rfl,
    fun k _ => getLsbD_cr3Under _ s.cr3 k, rfl⟩

section
variable {s : State} {v : Word} (hcpl : s.cpl = 0)
include hcpl

theorem writeCr4_of_unnamed (hnamed : v &&& ~~~cr4Named ≠ 0#64) : writeCr4 v s = .refused .reservedBits := by
  rw [writeCr4, requireCpl0_of_zero _ hcpl, if_pos hnamed]

theorem writeCr4_of_featureAbsent (hnamed : v &&& ~~~cr4Named = 0#64) (h18 : v.getLsbD 18 = true)
    (hxsave : s.params.hasXsave = false) : writeCr4 v s = .refused .featureAbsent := by
  rw [writeCr4, requireCpl0_of_zero _ hcpl, if_neg (not_not.mpr hnamed), h18, hxsave]
  rfl

theorem writeCr4_of_clearing_pae (hnamed : v &&& ~~~cr4Named = 0#64)
    (hxsave : v.getLsbD 18 = true → s.params.hasXsave = true) (hlma : s.lma = true) (h5 : v.getLsbD 5 = false) :
    writeCr4 v s = .fault .notPermitted := by
  have h1 : ¬ (v.getLsbD 18 && !s.params.hasXsave) = true := by simpa using hxsave
  rw [writeCr4, requireCpl0_of_zero _ hcpl, if_neg (not_not.mpr hnamed), if_neg h1, hlma, h5]
  rfl

end

/-- Settles O8: each check in turn, those before it passed. -/
theorem movToCr4Stops : Obligations.MovToCr4Stops := by
  rintro s m r v rfl
  exact ⟨fun hcpl => execMovCrR_of_fault (n := 4#4) (requireCpl0_of_ne _ hcpl),
    fun hcpl hnamed => execMovCrR_of_refused (n := 4#4) (writeCr4_of_unnamed hcpl hnamed),
    fun hcpl hnamed h18 hxsave => execMovCrR_of_refused (n := 4#4) (writeCr4_of_featureAbsent hcpl hnamed h18 hxsave),
    fun hcpl hnamed hxsave hlma h5 =>
      execMovCrR_of_fault (n := 4#4) (writeCr4_of_clearing_pae hcpl hnamed hxsave hlma h5)⟩

/-! The numbers the spec gives no register. -/

theorem movCr_invalidOpcode {s : State} {m : BitVec 2} {n r : BitVec 4} (h5 : 5 ≤ n.toNat) (h7 : n.toNat ≤ 7) :
    exec (.movRCr m n r) s = .fault .invalidOpcode ∧ exec (.movCrR m n r) s = .fault .invalidOpcode := by
  obtain h | h | h : n.toNat = 5 ∨ n.toNat = 6 ∨ n.toNat = 7 := by omega
  all_goals exact ⟨execMovRCr_of_fault (by rw [h]; rfl), execMovCrR_of_fault (by rw [h]; rfl)⟩

/-- Settles O9. -/
theorem otherControlRegistersStop : Obligations.OtherControlRegistersStop := by
  intro s m n r
  refine ⟨?_, movCr_invalidOpcode, fun h => ?_⟩
  · rintro rfl
    exact ⟨execMovRCr_of_refused (n := 1#4) rfl, execMovCrR_of_refused (n := 1#4) rfl⟩
  · obtain ⟨k, hk⟩ := Nat.exists_eq_add_of_le' h
    exact ⟨execMovRCr_of_refused (by rw [hk]; rfl), execMovCrR_of_refused (by rw [hk]; rfl)⟩

end Sys2Proof.Machine

/-! EFER access, forward (41_efer_access.md R130 to R136), and the order that activates long mode
(70_reset_and_hazards.md R212). -/

namespace Sys2Proof.Machine

/-! RDMSR. -/

/-- Settles O10. -/
theorem rdmsrReadsEfer : Obligations.RdmsrReadsEfer := by
  refine fun s => ⟨fun hecx hcpl => ?_, fun hecx hcpl => ?_, fun hecx => if_neg hecx⟩
  · refine (if_pos hecx).trans ?_
    rw [readEfer, requireCpl0_of_zero _ hcpl]
    rfl
  · refine (if_pos hecx).trans ?_
    rw [readEfer, requireCpl0_of_ne _ hcpl]
    rfl

/-! WRMSR. -/

section
variable {s : State} {v : Word}

theorem execWrmsr_of_next {t : State} (hv : v = s.edxEax) (hecx : s.reg32 ecx = eferMsr)
    (h : writeEfer v s = .next t) :
    exec .wrmsr s = .next (t.setAnswer .nothing) :=
  (if_pos hecx).trans (by rw [← hv, h]; rfl)

theorem execWrmsr_of_fault {f : Fault} (hv : v = s.edxEax) (hecx : s.reg32 ecx = eferMsr)
    (h : writeEfer v s = .fault f) :
    exec .wrmsr s = .fault f :=
  (if_pos hecx).trans (by rw [← hv, h]; rfl)

theorem execWrmsr_of_refused {e : Refusal} (hv : v = s.edxEax) (hecx : s.reg32 ecx = eferMsr)
    (h : writeEfer v s = .refused e) :
    exec .wrmsr s = .refused e :=
  (if_pos hecx).trans (by rw [← hv, h]; rfl)

theorem Params.hasLm_eq_true {p : Params} : p.hasLm = true ↔ p.arch = .x86_64 := by
  simp [Params.hasLm]

theorem Params.hasLm_eq_false {p : Params} : p.hasLm = false ↔ p.arch = .x86_32 := by
  cases h : p.arch <;> simp [Params.hasLm, h]

theorem State.eferFeatureAbsent_eq_false : s.eferFeatureAbsent v = false ↔
    (v.getLsbD 8 = true → s.params.arch = .x86_64) ∧ (v.getLsbD 11 = true → s.params.hasNx = true) ∧
      (v.getLsbD 14 = true → s.params.hasFfxsr = true) ∧
      (v.getLsbD 12 = true → s.params.hasSvm = true ∧ s.vmCr.svmeDisable = false) := by
  simp [State.eferFeatureAbsent, Params.hasLm, and_assoc]

theorem State.eferFeatureAbsent_eq_true : s.eferFeatureAbsent v = true ↔
    (v.getLsbD 8 = true ∧ s.params.arch = .x86_32) ∨ (v.getLsbD 11 = true ∧ s.params.hasNx = false) ∨
      (v.getLsbD 14 = true ∧ s.params.hasFfxsr = false) ∨
      (v.getLsbD 12 = true ∧ (s.params.hasSvm = false ∨ s.vmCr.svmeDisable = true)) := by
  simp only [State.eferFeatureAbsent, Bool.or_eq_true, Bool.and_eq_true, Bool.not_eq_true', Params.hasLm_eq_false,
    or_assoc]

end

section
variable {s : State} {v : Word} (hcpl : s.cpl = 0)
include hcpl

theorem writeEfer_of_unnamed (hnamed : v &&& ~~~eferNamed ≠ 0#64) : writeEfer v s = .refused .reservedBits := by
  rw [writeEfer, requireCpl0_of_zero _ hcpl, if_pos hnamed]

variable (hnamed : v &&& ~~~eferNamed = 0#64)
include hnamed

theorem writeEfer_of_lma_ne (hlma : v.getLsbD 10 ≠ s.lma) : writeEfer v s = .refused .writeChangesReadOnlyLma := by
  rw [writeEfer, requireCpl0_of_zero _ hcpl, if_neg (not_not.mpr hnamed), if_pos (bne_iff_ne.mpr hlma)]

variable (hlma : v.getLsbD 10 = s.lma)
include hlma

theorem writeEfer_of_lme_ne (hpg : s.pg = true) (hlme : v.getLsbD 8 ≠ s.lme) :
    writeEfer v s = .fault .notPermitted := by
  rw [writeEfer, requireCpl0_of_zero _ hcpl, if_neg (not_not.mpr hnamed), if_neg (by simpa using hlma),
    if_pos (by rw [hpg, Bool.and_true]; exact bne_iff_ne.mpr hlme)]
  rfl

variable (hlme : s.pg = true → v.getLsbD 8 = s.lme)
include hlme

theorem writeEfer_of_fixed_bits : writeEfer v s =
    if s.eferFeatureAbsent v then .refused .featureAbsent
    else if !v.getLsbD 12 && s.svme && s.guestRunning then .refused .undefinedSvmeOffWhileGuestRuns
    else .next (s.setEfer v) := by
  have h1 : ¬ (v.getLsbD 8 != s.lme && s.pg) = true := by
    rw [Bool.and_eq_true, bne_iff_ne]
    exact fun h => h.1 (hlme h.2)
  rw [writeEfer, requireCpl0_of_zero _ hcpl, if_neg (not_not.mpr hnamed), if_neg (by simpa using hlma), if_neg h1]

end

/-- Settles O11. -/
theorem wrmsrWritesEfer : Obligations.WrmsrWritesEfer := by
  intro s v hv hecx hcpl hnamed hlma hlme hlm hnx hffxsr hsvm hguest
  have hfeatures : s.eferFeatureAbsent v = false := State.eferFeatureAbsent_eq_false.mpr ⟨hlm, hnx, hffxsr, hsvm⟩
  have h1 : ¬ (!v.getLsbD 12 && s.svme && s.guestRunning) = true := by simpa using hguest
  refine execWrmsr_of_next hv hecx ((writeEfer_of_fixed_bits hcpl hnamed hlma hlme).trans ?_)
  rw [hfeatures, if_neg Bool.false_ne_true, if_neg h1]

/-- Settles O12: each check in turn, those before it passed. -/
theorem wrmsrRefusals : Obligations.WrmsrRefusals := by
  intro s v hv
  refine ⟨fun hecx => if_neg hecx, fun hecx hcpl => ⟨fun hnamed => ?_, fun hnamed => ⟨fun hlma => ?_,
    fun hlma hlme => ⟨fun habsent => ?_, fun hfeatures h12 hsvme hguest => ?_⟩⟩⟩⟩
  · exact execWrmsr_of_refused hv hecx (writeEfer_of_unnamed hcpl hnamed)
  · exact execWrmsr_of_refused hv hecx (writeEfer_of_lma_ne hcpl hnamed hlma)
  · refine execWrmsr_of_refused hv hecx ((writeEfer_of_fixed_bits hcpl hnamed hlma hlme).trans ?_)
    exact if_pos (State.eferFeatureAbsent_eq_true.mpr habsent)
  · refine execWrmsr_of_refused hv hecx ((writeEfer_of_fixed_bits hcpl hnamed hlma hlme).trans ?_)
    rw [hfeatures, h12, hsvme, hguest]
    rfl

/-- Settles O13. -/
theorem wrmsrFaults : Obligations.WrmsrFaults := by
  intro s v hv hecx
  exact ⟨fun hcpl => execWrmsr_of_fault hv hecx (requireCpl0_of_ne _ hcpl),
    fun hcpl hnamed hlma hpg hlme => execWrmsr_of_fault hv hecx (writeEfer_of_lme_ne hcpl hnamed hlma hpg hlme)⟩

/-! Activating long mode. -/

/-- An EFER value with no unnamed bit has no high half. -/
theorem getLsbD_of_eferNamed {v : Word} (h : v &&& ~~~eferNamed = 0#64) {k : Nat} (h32 : 32 ≤ k) (h64 : k < 64) :
    v.getLsbD k = false := by
  have hk := congrArg (·.getLsbD k) h
  have hmask : ∀ k < 64, 32 ≤ k → (~~~eferNamed).getLsbD k = true := by decide
  simpa only [BitVec.getLsbD_and, hmask k h64 h32, Bool.and_true, BitVec.getLsbD_zero] using hk

/-- EDX:EAX with EDX = 0 and EAX the low half of EFER with bit 8 added is EFER with LME added. -/
theorem State.Inv.edxEax_eq_withLme {s : State} (hs : s.Inv) (hedx : s.reg32 edx = 0#32)
    (heax : s.reg32 eax = low32 s.efer ||| 0x100#32) : s.edxEax = withBit s.efer 8 true := by
  apply BitVec.eq_of_getLsbD_eq
  intro k hk
  rw [State.edxEax, hedx, heax, getLsbD_withBit _ _ _ _ (by decide), BitVec.getLsbD_append]
  split
  · rename_i h32
    have hmask : ∀ k < 32, (0x100#32).getLsbD k = decide (k = 8) := by decide
    rw [BitVec.getLsbD_or, hmask k h32, low32, BitVec.getLsbD_extractLsb']
    by_cases e : k = 8 <;> simp [e, h32]
  · rename_i h32
    rw [BitVec.getLsbD_zero, if_neg (by omega), getLsbD_of_eferNamed hs.eferNamed (by omega) hk]

/-- Under the invariants WRMSR of EFER with LME added passes every check while paging is off in the 64-bit variant. -/
theorem execWrmsr_lme_of_inv {s : State} (hs : s.Inv) (hcpl : s.cpl = 0) (hpg : s.pg = false)
    (harch : s.params.arch = .x86_64) (hecx : s.reg32 ecx = eferMsr) (hv : s.edxEax = withBit s.efer 8 true) :
    exec .wrmsr s = .next ((s.setEfer (withBit s.efer 8 true)).setAnswer .nothing) := by
  have hbit (k : Nat) (hk : k ≠ 8) : (withBit s.efer 8 true).getLsbD k = s.efer.getLsbD k := by
    rw [getLsbD_withBit _ _ _ _ (by decide), if_neg hk]
  obtain ⟨-, hnx, hffxsr, hsvm⟩ := State.eferFeatureAbsent_eq_false.mp hs.features
  refine wrmsrWritesEfer s (withBit s.efer 8 true) hv.symm hecx hcpl
    (withBit_eferNamed true (by decide) (by decide) hs.eferNamed) (hbit 10 (by decide))
    (fun h => absurd (hpg.symm.trans h) Bool.false_ne_true) (fun _ => harch) ?_ ?_ ?_ ?_
  · rwa [hbit 11 (by decide)]
  · rwa [hbit 14 (by decide)]
  · rwa [hbit 12 (by decide)]
  · rw [hbit 12 (by decide)]
    exact fun h12 hsvme => absurd (h12.symm.trans hsvme) Bool.false_ne_true

/-- Settles O15: with paging off WRMSR of EFER with LME added passes its checks and keeps LMA off; then MOV CR0,r passes
its own, since PAE is 1, and LMA becomes LME and PG. -/
theorem longModeActivation : Obligations.LongModeActivation := by
  intro s m r hs hcpl hpg hpae harch hecx hedx heax
  have hwrmsr := execWrmsr_lme_of_inv hs hcpl hpg harch hecx (hs.edxEax_eq_withLme hedx heax)
  generalize ht : (s.setEfer (withBit s.efer 8 true)).setAnswer .nothing = t at hwrmsr
  have hlme : t.lme = true := by
    rw [← ht]
    exact getLsbD_withBit s.efer 8 true 8 (by decide)
  have hlma : t.lma = false := by rw [execWrmsr_keeps_lma hwrmsr, hs.lma, hpg, Bool.and_false]
  refine ⟨t, hwrmsr, hlme, hlma, fun hhigh h31 h0 => ?_⟩
  have hcr0 : writeCr0 (t.srcReg r) t = .next (t.afterCr0 (t.srcReg r)) := by
    refine writeCr0_of_checks (by rw [← ht]; exact hcpl) hhigh (fun _ => h0) (fun _ _ _ => by rw [← ht]; exact hpae) ?_
    exact fun hclear => absurd (hclear.symm.trans h31) Bool.false_ne_true
  have hactive : (t.afterCr0 (t.srcReg r)).lma = true := by rw [t.afterCr0_lma, hlme, h31, Bool.and_true]
  refine ⟨_, execMovCrR_of_next (n := 0#4) hcr0, hactive, fun hl => ?_⟩
  have hcsL : t.csL = false := by rw [← ht]; exact hl
  exact congrArg₂ (· && !·) hactive hcsL

end Sys2Proof.Machine

/-! The gates, forward: the interrupt-flag instructions, the counters and the debug registers (42_cr4_gated.md
sections 1 to 4), and virtual-8086 mode, where every gate is refused (decision D17). -/

namespace Sys2Proof.Machine

/-! CLI, STI and INT n. -/

theorem State.realMode_or_ioAllowed {s : State} :
    (s.realMode || s.ioAllowed) = true ↔ s.pe = false ∨ s.cpl.val ≤ s.rflags.iopl.toNat := by
  simp [State.realMode, State.ioAllowed]

/-- In protected mode above IOPL the first branch of CLI and STI is not taken. -/
theorem State.not_realMode_or_ioAllowed {s : State} (hpe : s.pe = true) (hiopl : s.rflags.iopl.toNat < s.cpl.val) :
    ¬ (s.realMode || s.ioAllowed) = true := by
  rw [State.realMode_or_ioAllowed, hpe]
  simpa using hiopl

theorem State.pvi_and_cpl3 {s : State} : (s.pvi && s.cpl == 3) = true ↔ s.pvi = true ∧ s.cpl = 3 := by
  simp

theorem execCli_above_iopl {s : State} (hvm : s.rflags.vm = false) (hpe : s.pe = true)
    (hiopl : s.rflags.iopl.toNat < s.cpl.val) :
    exec .cli s = if s.pvi && s.cpl == 3 then (s.setVif false).done else raise .notPermitted :=
  (outsideVirtual8086_of_not_vm _ hvm).trans (if_neg (State.not_realMode_or_ioAllowed hpe hiopl))

theorem execSti_above_iopl {s : State} (hvm : s.rflags.vm = false) (hpe : s.pe = true)
    (hiopl : s.rflags.iopl.toNat < s.cpl.val) :
    exec .sti s = if s.pvi && s.cpl == 3 then (if s.rflags.vip then raise .notPermitted else (s.setVif true).done)
      else raise .notPermitted :=
  (outsideVirtual8086_of_not_vm _ hvm).trans (if_neg (State.not_realMode_or_ioAllowed hpe hiopl))

/-- Settles O16. -/
theorem cliCompletes : Obligations.CliCompletes := fun _ hvm =>
  ⟨fun hio => (outsideVirtual8086_of_not_vm _ hvm).trans (if_pos (State.realMode_or_ioAllowed.mpr hio)),
    fun hpe hiopl hpvi hcpl =>
      (execCli_above_iopl hvm hpe hiopl).trans (if_pos (State.pvi_and_cpl3.mpr ⟨hpvi, hcpl⟩))⟩

/-- Settles O17. -/
theorem stiCompletes : Obligations.StiCompletes := by
  refine fun s hvm => ⟨fun hio => ?_, fun hpe hiopl hpvi hcpl hvip => ?_⟩
  · exact (outsideVirtual8086_of_not_vm _ hvm).trans (if_pos (State.realMode_or_ioAllowed.mpr hio))
  · rw [execSti_above_iopl hvm hpe hiopl, if_pos (State.pvi_and_cpl3.mpr ⟨hpvi, hcpl⟩), hvip]
    rfl

/-- Settles O18. -/
theorem cliStiFaults : Obligations.CliStiFaults := by
  refine fun s hvm hpe hiopl => ⟨fun hpvi => ⟨?_, ?_⟩, fun hpvi hcpl hvip => ?_⟩
  · exact (execCli_above_iopl hvm hpe hiopl).trans (if_neg (mt State.pvi_and_cpl3.mp hpvi))
  · exact (execSti_above_iopl hvm hpe hiopl).trans (if_neg (mt State.pvi_and_cpl3.mp hpvi))
  · rw [execSti_above_iopl hvm hpe hiopl, if_pos (State.pvi_and_cpl3.mpr ⟨hpvi, hcpl⟩), hvip]
    rfl

/-- Settles O19. -/
theorem intPermitted : Obligations.IntPermitted := fun _ _ hvm =>
  ⟨outsideVirtual8086_of_not_vm _ hvm, outsideVirtual8086_of_not_vm _ hvm⟩

/-! Virtual-8086 mode. -/

/-- Every instruction but the accesses to control registers and EFER is a gate. -/
theorem exec_of_vm {i : Instr} {s : State} (hvm : s.rflags.vm = true)
    (hcr : ∀ m n r, i ≠ .movRCr m n r ∧ i ≠ .movCrR m n r) (hrdmsr : i ≠ .rdmsr) (hwrmsr : i ≠ .wrmsr) :
    exec i s = .refused .virtual8086ModeNotModelled := by
  cases i with
  | movRCr m n r => exact absurd rfl (hcr m n r).1
  | movCrR m n r => exact absurd rfl (hcr m n r).2
  | rdmsr => exact absurd rfl hrdmsr
  | wrmsr => exact absurd rfl hwrmsr
  | movRDr m n r => simp [exec, execMovRDr, readDr, outsideVirtual8086_of_vm _ hvm]
  | movDrR m n r => simp [exec, execMovDrR, writeDr, outsideVirtual8086_of_vm _ hvm]
  | _ => exact outsideVirtual8086_of_vm _ hvm

/-- Settles O20. -/
theorem virtual8086Refused : Obligations.Virtual8086Refused := by
  refine fun s hvm => ⟨fun i hcr hrdmsr hwrmsr => exec_of_vm hvm hcr hrdmsr hwrmsr, ?_⟩
  rintro e (rfl | ⟨w, rfl | rfl⟩)
  all_goals exact outsideVirtual8086_of_vm _ hvm

/-! RDTSC, RDTSCP and RDPMC. -/

theorem State.gateCpl_eq_zero_iff {s : State} : s.gateCpl = 0 ↔ s.pe = false ∨ s.cpl = 0 := by
  cases hpe : s.pe <;> simp [State.gateCpl, State.realMode, hpe]

/-- An outcome that is a fault is no next state. -/
theorem not_exists_next_of_fault {o : Result State} {f : Fault} (h : o = .fault f) : ¬ ∃ t, o = .next t := by
  rintro ⟨t, ht⟩
  cases h.symm.trans ht

section
variable {s : State} (hvm : s.rflags.vm = false)
include hvm

theorem tscGate_of_permitted (o : Result State) (h : s.tsd = false ∨ s.gateCpl = 0) : tscGate s o = o := by
  have hgate : ¬ (s.tsd && s.gateCpl != 0) = true := by
    obtain h | h := h <;> simp [h]
  exact (outsideVirtual8086_of_not_vm _ hvm).trans (if_neg hgate)

theorem tscGate_of_restricted (o : Result State) (htsd : s.tsd = true) (hcpl : s.gateCpl ≠ 0) :
    tscGate s o = .fault .notPermitted :=
  (outsideVirtual8086_of_not_vm _ hvm).trans (if_pos (by simp [htsd, hcpl]))

theorem execRdpmc_of_permitted (h : s.pce = true ∨ s.gateCpl = 0) :
    exec .rdpmc s = (s.readPerf.drawn 1).giveValue (Config.freeWord s.draws) := by
  have hgate : ¬ (!s.pce && s.gateCpl != 0) = true := by
    obtain h | h := h <;> simp [h]
  exact (outsideVirtual8086_of_not_vm _ hvm).trans (if_neg hgate)

theorem execRdpmc_of_restricted (hpce : s.pce = false) (hcpl : s.gateCpl ≠ 0) :
    exec .rdpmc s = .fault .notPermitted :=
  (outsideVirtual8086_of_not_vm _ hvm).trans (if_pos (by simp [hpce, hcpl]))

end

/-- Settles O21. -/
theorem rdtscAndRdtscpComplete : Obligations.RdtscAndRdtscpComplete := fun _ hvm =>
  ⟨fun h => ⟨⟨_, tscGate_of_permitted hvm _ h⟩, ⟨_, _, tscGate_of_permitted hvm _ h⟩⟩,
    fun htsd hcpl => ⟨tscGate_of_restricted hvm _ htsd hcpl, tscGate_of_restricted hvm _ htsd hcpl⟩⟩

/-- Settles O22: both instructions are the same gate. -/
theorem tsdRestrictsTimeStampCounter : Obligations.TsdRestrictsTimeStampCounter := by
  intro s i hvm hi
  obtain ⟨o, t, hgate, ho⟩ : ∃ o t, exec i s = tscGate s o ∧ o = .next t := by
    obtain rfl | rfl := hi <;> exact ⟨_, _, rfl, rfl⟩
  have hopen (h : s.tsd = false ∨ s.gateCpl = 0) : ∃ t, exec i s = .next t :=
    ⟨t, hgate.trans ((tscGate_of_permitted hvm o h).trans ho)⟩
  refine ⟨fun htsd => hopen (.inl htsd), fun htsd => ?_⟩
  change _ ↔ s.pe = false ∨ s.cpl = 0
  rw [← State.gateCpl_eq_zero_iff]
  refine ⟨fun hnext => ?_, fun hcpl => hopen (.inr hcpl)⟩
  by_contra hcpl
  exact not_exists_next_of_fault (hgate.trans (tscGate_of_restricted hvm o htsd hcpl)) hnext

/-- Settles O23. -/
theorem rdpmcCompletes : Obligations.RdpmcCompletes := fun _ hvm =>
  ⟨fun h => ⟨_, execRdpmc_of_permitted hvm h⟩, execRdpmc_of_restricted hvm⟩

/-- Settles O24. -/
theorem pceOpensPerformanceCounters : Obligations.PceOpensPerformanceCounters := by
  refine fun s hvm => ⟨fun hpce => ⟨_, execRdpmc_of_permitted hvm (.inl hpce)⟩, fun hpce => ?_⟩
  change _ ↔ s.pe = false ∨ s.cpl = 0
  rw [← State.gateCpl_eq_zero_iff]
  refine ⟨fun hnext => ?_, fun hcpl => ⟨_, execRdpmc_of_permitted hvm (.inr hcpl)⟩⟩
  by_contra hcpl
  exact not_exists_next_of_fault (execRdpmc_of_restricted hvm hpce hcpl) hnext

/-! Debug registers. -/

section
variable {m : BitVec 2} {n r : BitVec 4} {s : State}

theorem execMovRDr_of_next {v : Word} (h : readDr n.toNat s = .next v) :
    exec (.movRDr m n r) s = .next ((s.setGpr r (if s.mode64 then v else zext64 (low32 v))).setAnswer (.value v)) := by
  simp [exec, execMovRDr, h, State.dstReg, State.giveValue]

theorem execMovRDr_of_fault {f : Fault} (h : readDr n.toNat s = .fault f) : exec (.movRDr m n r) s = .fault f := by
  simp [exec, execMovRDr, h]

theorem execMovRDr_of_refused {e : Refusal} (h : readDr n.toNat s = .refused e) :
    exec (.movRDr m n r) s = .refused e := by
  simp [exec, execMovRDr, h]

theorem execMovDrR_of_next {t : State} (h : writeDr n.toNat (s.srcReg r) s = .next t) :
    exec (.movDrR m n r) s = .next (t.setAnswer .nothing) := by
  simp [exec, execMovDrR, h, State.done]

theorem execMovDrR_of_fault {f : Fault} (h : writeDr n.toNat (s.srcReg r) s = .fault f) :
    exec (.movDrR m n r) s = .fault f := by
  simp [exec, execMovDrR, h]

theorem execMovDrR_of_refused {e : Refusal} (h : writeDr n.toNat (s.srcReg r) s = .refused e) :
    exec (.movDrR m n r) s = .refused e := by
  simp [exec, execMovDrR, h]

theorem debugAlias_of_de {α : Type} (o : Result α) (hde : s.de = true) :
    debugAlias s o = .fault (reservedDebugFault s) :=
  if_pos hde

theorem debugAlias_of_not_de {α : Type} (o : Result α) (hde : s.de = false) : debugAlias s o = o :=
  if_neg (by simp [hde])

theorem reservedDebugFault_of_level0 (h : s.gateCpl = 0) : reservedDebugFault s = .invalidOpcode := by
  simp [reservedDebugFault, h]

theorem reservedDebugFault_cases (s : State) :
    reservedDebugFault s = .invalidOpcode ∨ reservedDebugFault s = .notPermitted := by
  unfold reservedDebugFault
  split <;> simp

variable (hvm : s.rflags.vm = false)
include hvm

/-- DR6 by its number, or by 4 while DE = 0. -/
theorem dr6_access (hn : n = 6#4 ∨ (n = 4#4 ∧ s.de = false)) (v : Word) :
    readDr n.toNat s = .next s.dr6 ∧ writeDr n.toNat v s = .next (s.setDr6 v) := by
  obtain rfl | ⟨rfl, hde⟩ := hn
  · exact ⟨outsideVirtual8086_of_not_vm _ hvm, outsideVirtual8086_of_not_vm _ hvm⟩
  · exact ⟨(outsideVirtual8086_of_not_vm _ hvm).trans (debugAlias_of_not_de _ hde),
      (outsideVirtual8086_of_not_vm _ hvm).trans (debugAlias_of_not_de _ hde)⟩

/-- DR7 by its number, or by 5 while DE = 0. -/
theorem dr7_access (hn : n = 7#4 ∨ (n = 5#4 ∧ s.de = false)) (v : Word) :
    readDr n.toNat s = .next s.dr7 ∧ writeDr n.toNat v s = .next (s.setDr7 v) := by
  obtain rfl | ⟨rfl, hde⟩ := hn
  · exact ⟨outsideVirtual8086_of_not_vm _ hvm, outsideVirtual8086_of_not_vm _ hvm⟩
  · exact ⟨(outsideVirtual8086_of_not_vm _ hvm).trans (debugAlias_of_not_de _ hde),
      (outsideVirtual8086_of_not_vm _ hvm).trans (debugAlias_of_not_de _ hde)⟩

/-- DR4 and DR5 while DE = 1: a read and a write are the same fault. -/
theorem reservedDr_access (hde : s.de = true) (hn : n = 4#4 ∨ n = 5#4) (v : Word) :
    readDr n.toNat s = .fault (reservedDebugFault s) ∧ writeDr n.toNat v s = .fault (reservedDebugFault s) := by
  obtain rfl | rfl := hn
  all_goals exact ⟨(outsideVirtual8086_of_not_vm _ hvm).trans (debugAlias_of_de _ hde),
    (outsideVirtual8086_of_not_vm _ hvm).trans (debugAlias_of_de _ hde)⟩

/-- DR0 to DR3 and DR8 to DR15 are outside the spec. -/
theorem otherDr_access {k : Nat} (hk : k ≤ 3 ∨ 8 ≤ k) (v : Word) :
    readDr k s = .refused (.drOutsideSpec k) ∧ writeDr k v s = .refused (.drOutsideSpec k) := by
  constructor
  · rw [readDr, outsideVirtual8086_of_not_vm _ hvm] <;> omega
  · rw [writeDr, outsideVirtual8086_of_not_vm _ hvm] <;> omega

end

/-- Settles O25. -/
theorem debugRegisterMoves : Obligations.DebugRegisterMoves := by
  refine fun s m n r hvm => ⟨fun hn => ?_, fun hn => ?_⟩
  · obtain ⟨hread, hwrite⟩ := dr6_access hvm hn (s.srcReg r)
    exact ⟨execMovRDr_of_next hread, execMovDrR_of_next hwrite⟩
  · obtain ⟨hread, hwrite⟩ := dr7_access hvm hn (s.srcReg r)
    exact ⟨execMovRDr_of_next hread, execMovDrR_of_next hwrite⟩

/-- Settles O26. -/
theorem debugRegisterStops : Obligations.DebugRegisterStops := by
  refine fun s m n r hvm => ⟨fun hde hn hcpl => ?_, fun hde hn _ => ?_, fun hn => ?_⟩
  · obtain ⟨hread, hwrite⟩ := reservedDr_access hvm hde hn (s.srcReg r)
    rw [reservedDebugFault_of_level0 hcpl] at hread hwrite
    exact ⟨execMovRDr_of_fault hread, execMovDrR_of_fault hwrite⟩
  · obtain ⟨hread, hwrite⟩ := reservedDr_access hvm hde hn (s.srcReg r)
    exact ⟨⟨_, reservedDebugFault_cases s, execMovRDr_of_fault hread⟩,
      ⟨_, reservedDebugFault_cases s, execMovDrR_of_fault hwrite⟩⟩
  · obtain ⟨hread, hwrite⟩ := otherDr_access hvm hn (s.srcReg r)
    exact ⟨execMovRDr_of_refused hread, execMovDrR_of_refused hwrite⟩

end Sys2Proof.Machine

/-! The media state and the XSAVE family, forward (42_cr4_gated.md sections 5 and 6). -/

namespace Sys2Proof.Machine

/-! Which components FXSAVE and FXRSTOR move. -/

section
variable {s : State}

theorem State.fastFx_eq_true : s.fastFx = true ↔ s.ffxsr = true ∧ s.mode64 = true ∧ s.gateCpl = 0 := by
  simp [State.fastFx, and_assoc]

theorem State.fastFx_eq_false : s.fastFx = false ↔ ¬ (s.ffxsr = true ∧ s.mode64 = true ∧ s.gateCpl = 0) := by
  rw [← State.fastFx_eq_true, Bool.not_eq_true]

theorem State.x87_mem_fxMoved : .x87 ∈ s.fxMoved := by
  cases ho : s.osfxsr <;> cases hf : s.fastFx <;> simp [State.fxMoved, ho, hf]

theorem State.mmx_mem_fxMoved : .mmx ∈ s.fxMoved := by
  cases ho : s.osfxsr <;> cases hf : s.fastFx <;> simp [State.fxMoved, ho, hf]

theorem State.mxcsr_mem_fxMoved : .mxcsr ∈ s.fxMoved ↔ s.osfxsr = true := by
  cases ho : s.osfxsr <;> cases hf : s.fastFx <;> simp [State.fxMoved, ho, hf]

theorem State.xmm_mem_fxMoved : .xmm ∈ s.fxMoved ↔ s.osfxsr = true ∧ s.fastFx = false := by
  cases ho : s.osfxsr <;> cases hf : s.fastFx <;> simp [State.fxMoved, ho, hf]

theorem State.not_mem_fxUnstated {c : Component} (h : s.osfxsr = true) : c ∉ s.fxUnstated := by
  simp [State.fxUnstated, h]

/-! FXSAVE and FXRSTOR. -/

/-- Outside virtual-8086 mode FXSAVE completes. -/
theorem execFxsave_of_not_vm (hvm : s.rflags.vm = false) (op : MemOperand) : exec (.fxsave op) s =
    .next (((s.setMem (memStoreImage (s.imageAddress op) s.fxByte Config.fxImageBytes s.mem)).setDraws
      (s.draws + 1)).setAnswer (.moved s.fxMoved)) :=
  outsideVirtual8086_of_not_vm _ hvm

theorem execFxrstor_of_not_vm (hvm : s.rflags.vm = false) (op : MemOperand) : exec (.fxrstor op) s =
    .next (((s.setMedia (s.fxMedia op)).setDraws (s.draws + 1)).setAnswer (.moved s.fxMoved)) :=
  outsideVirtual8086_of_not_vm _ hvm

/-- A byte of a component that is skipped keeps its memory content. -/
theorem State.fxByte_of_skipped {i : Nat} (howner : Config.fxImageOwner i = some .xmm) (ho : s.osfxsr = true)
    (hf : s.fastFx = true) : s.fxByte i = .none := by
  have hmoved : .xmm ∉ s.fxMoved := by simp [State.xmm_mem_fxMoved, hf]
  simp [State.fxByte, howner, hmoved, State.not_mem_fxUnstated ho]

/-- A component that is moved is loaded from the image. -/
theorem State.fxRestored_of_moved {op : MemOperand} {c : Component} (h : c ∈ s.fxMoved) (j : Nat) (old : Content) :
    s.fxRestored op c j old = Config.fxLoad c j (s.imageBytes op Config.fxImageBytes) :=
  if_pos h

theorem State.fxRestored_of_skipped {op : MemOperand} {c : Component} (h : c ∉ s.fxMoved) (ho : s.osfxsr = true)
    (j : Nat) (old : Content) : s.fxRestored op c j old = old :=
  (if_neg h).trans (if_neg (State.not_mem_fxUnstated ho))

theorem State.fxMedia_xmm (op : MemOperand) (j : Fin 16) :
    (s.fxMedia op).xmm[j] = s.fxRestored op .xmm j.val s.media.xmm[j] := by
  simp [State.fxMedia]

end

/-- Settles O27. -/
theorem fxsaveCompletes : Obligations.FxsaveCompletes := by
  intro s op hvm
  refine ⟨_, execFxsave_of_not_vm hvm op, rfl, rfl, fun a ha => ?_⟩
  refine memRead_memStoreImage_other _ _ _ _ a fun i hi hbyte haddr => hbyte ?_
  obtain ⟨howner, ho, hf⟩ := ha i hi haddr
  exact State.fxByte_of_skipped howner ho (State.fastFx_eq_true.mpr hf)

/-- Settles O28. -/
theorem fxrstorCompletes : Obligations.FxrstorCompletes := by
  intro s op hvm
  refine ⟨_, execFxrstor_of_not_vm hvm op, rfl, rfl, State.fxRestored_of_moved State.x87_mem_fxMoved _ _,
    State.fxRestored_of_moved State.mmx_mem_fxMoved _ _,
    fun ho => State.fxRestored_of_moved (State.mxcsr_mem_fxMoved.mpr ho) _ _, fun ho hf j => ?_,
    fun ho hffxsr h64 hcpl j => ?_, rfl, rfl⟩
  · have hmoved : .xmm ∈ s.fxMoved := State.xmm_mem_fxMoved.mpr ⟨ho, State.fastFx_eq_false.mpr hf⟩
    exact (State.fxMedia_xmm op j).trans (State.fxRestored_of_moved hmoved _ _)
  · have hmoved : .xmm ∉ s.fxMoved := by simp [State.xmm_mem_fxMoved, State.fastFx_eq_true.mpr ⟨hffxsr, h64, hcpl⟩]
    exact (State.fxMedia_xmm op j).trans (State.fxRestored_of_skipped hmoved ho _ _)

/-- FXSAVE and FXRSTOR complete and answer the components moved; XMM that is not listed keeps its values. -/
theorem execFx_of_not_vm {s : State} {op : MemOperand} {i : Instr} (hvm : s.rflags.vm = false)
    (hi : i = .fxsave op ∨ i = .fxrstor op) : ∃ t, exec i s = .next t ∧ t.answer = .moved s.fxMoved ∧
      (s.osfxsr = true → .xmm ∉ s.fxMoved → ∀ j : Fin 16, t.media.xmm[j] = s.media.xmm[j]) := by
  obtain rfl | rfl := hi
  · exact ⟨_, execFxsave_of_not_vm hvm op, rfl, fun _ _ _ => rfl⟩
  · exact ⟨_, execFxrstor_of_not_vm hvm op, rfl,
      fun ho hmoved j => (State.fxMedia_xmm op j).trans (State.fxRestored_of_skipped hmoved ho _ _)⟩

/-- Settles O30. -/
theorem ffxsrSkipsXmm : Obligations.FfxsrSkipsXmm := by
  intro s op i hvm ho hi
  obtain ⟨t, hexec, hanswer, hkeep⟩ := execFx_of_not_vm hvm hi
  refine ⟨t, _, hexec, hanswer, State.x87_mem_fxMoved, State.mxcsr_mem_fxMoved.mpr ho, ?_, hkeep ho⟩
  rw [State.xmm_mem_fxMoved, not_and, Bool.not_eq_false, State.fastFx_eq_true, State.gateCpl_eq_zero_iff]
  exact ⟨fun h => h ho, fun h _ => h⟩

/-! The media classes. -/

theorem takeMediaInsn_of_osfxsr {s : State} {w : MediaWidth} (hvm : s.rflags.vm = false) (ho : s.osfxsr = true) :
    takeEvent (.mediaInsn w) s = .next (((s.setMedia s.freeSse).setDraws (s.draws + 1)).setAnswer .permitted) :=
  (outsideVirtual8086_of_not_vm _ hvm).trans (if_neg (by simp [ho]))

theorem takeMediaInsn_of_not_osfxsr {s : State} {w : MediaWidth} (hvm : s.rflags.vm = false) (ho : s.osfxsr = false) :
    takeEvent (.mediaInsn w) s = .fault .invalidOpcode :=
  (outsideVirtual8086_of_not_vm _ hvm).trans (if_pos (by simp [ho]))

/-- Settles O29. -/
theorem osfxsrEnablesMediaInstructions : Obligations.OsfxsrEnablesMediaInstructions := by
  intro s op w hvm
  refine ⟨fun ho => takeMediaInsn_of_not_osfxsr hvm ho, fun ho => ⟨_, takeMediaInsn_of_osfxsr hvm ho, rfl⟩,
    fun i hi => ?_⟩
  obtain ⟨t, hexec, hanswer, -⟩ := execFx_of_not_vm hvm hi
  refine ⟨t, _, hexec, hanswer, State.x87_mem_fxMoved, State.mmx_mem_fxMoved, State.mxcsr_mem_fxMoved,
    fun h => (State.xmm_mem_fxMoved.mp h).1, fun ho hffxsr => State.xmm_mem_fxMoved.mpr ⟨ho, ?_⟩⟩
  exact State.fastFx_eq_false.mpr fun h => Bool.false_ne_true (hffxsr.symm.trans h.1)

theorem takeMediaFpError_of_osxmmexcpt {s : State} {w : MediaWidth} (hvm : s.rflags.vm = false)
    (ho : s.osxmmexcpt = true) : takeEvent (.mediaFpError w) s = .fault .simdFloatingPoint :=
  (outsideVirtual8086_of_not_vm _ hvm).trans (if_pos ho)

theorem takeMediaFpError_w128 {s : State} (hvm : s.rflags.vm = false) (ho : s.osxmmexcpt = false) :
    takeEvent (.mediaFpError .w128) s = .fault .invalidOpcode :=
  (outsideVirtual8086_of_not_vm _ hvm).trans (if_neg (by simp [ho]))

/-- Settles O31. -/
theorem osxmmexcptRoutesErrors : Obligations.OsxmmexcptRoutesErrors := by
  refine fun s w hvm => ⟨takeMediaFpError_of_osxmmexcpt hvm, ?_⟩
  rintro ho rfl
  exact takeMediaFpError_w128 hvm ho

theorem takeMediaFpError_w256 {s : State} (hvm : s.rflags.vm = false) (ho : s.osxmmexcpt = false) :
    (s.params.xf256 = .refuse → takeEvent (.mediaFpError .w256) s = .refused .xf256WhenOsxmmexcpt0) ∧
      (s.params.xf256 = .invalidOpcode → takeEvent (.mediaFpError .w256) s = .fault .invalidOpcode) := by
  have hgate : ¬ s.osxmmexcpt = true := by simp [ho]
  constructor <;> intro hx <;>
    exact (outsideVirtual8086_of_not_vm _ hvm).trans ((if_neg hgate).trans (by simp [hx, raise]))

/-- Settles O32. -/
theorem mediaError256 : Obligations.MediaError256 :=
  ⟨rfl, fun _ hvm ho => takeMediaFpError_w256 hvm ho⟩

/-! The XSAVE family. -/

section
variable {s : State} (hvm : s.rflags.vm = false)
include hvm

theorem requireOsxsave_of_osxsave (o : Result State) (ho : s.osxsave = true) : requireOsxsave s o = o :=
  (outsideVirtual8086_of_not_vm _ hvm).trans (if_pos ho)

theorem requireOsxsave_of_not_osxsave (o : Result State) (ho : s.osxsave = false) :
    requireOsxsave s o = .fault .notPermitted :=
  (outsideVirtual8086_of_not_vm _ hvm).trans (if_neg (by simp [ho]))

end

/-- Settles O33. -/
theorem xgetbvAndXsetbvComplete : Obligations.XgetbvAndXsetbvComplete := by
  refine fun s hvm ho => ⟨⟨_, requireOsxsave_of_osxsave hvm _ ho⟩, fun hcpl => ⟨s.xcr0Written, fun hecx => ?_, ?_⟩⟩
  · exact if_neg hecx
  · exact (requireOsxsave_of_osxsave hvm _ ho).trans (if_neg (by simp [hcpl]))

/-- XRSTOR takes of its operand the bytes of the image alone. -/
theorem State.xMedia_congr {s : State} {op q : MemOperand} (h : ∀ i < Config.xsaveBytes s.xcr0 s.edxEax,
    memRead s.mem (s.imageAddress q i) = memRead s.mem (s.imageAddress op i)) : s.xMedia q = s.xMedia op := by
  have hbytes : s.imageBytes q (Config.xsaveBytes s.xcr0 s.edxEax) =
      s.imageBytes op (Config.xsaveBytes s.xcr0 s.edxEax) :=
    List.map_congr_left fun i hi => h i (List.mem_range.mp hi)
  simp only [State.xMedia, State.xRestored, hbytes]

/-- Settles O34. -/
theorem xsaveAndXrstorComplete : Obligations.XsaveAndXrstorComplete := by
  refine fun s op hvm ho => ⟨⟨_, requireOsxsave_of_osxsave hvm _ ho, rfl, fun a ha => ?_⟩,
    ⟨_, requireOsxsave_of_osxsave hvm _ ho, rfl⟩, fun q hq => ?_⟩
  · exact memRead_memStoreImage_other _ _ _ _ a fun i hi _ => ha i hi
  · rw [exec, exec, execXrstor, execXrstor, State.xMedia_congr hq]

/-- Settles O35. -/
theorem xsaveFamilyFaults : Obligations.XsaveFamilyFaults := by
  refine fun s op hvm => ⟨fun ho i hi => ?_, fun ho hcpl => ?_⟩
  · obtain rfl | rfl | rfl | rfl := hi <;> exact requireOsxsave_of_not_osxsave hvm _ ho
  · exact (requireOsxsave_of_osxsave hvm _ ho).trans (if_pos (by simp [hcpl]))

end Sys2Proof.Machine

/-! The instructions gated by EFER, forward (43_efer_gated.md R170 to R174). -/

namespace Sys2Proof.Machine

/-! SYSCALL and SYSRET. -/

section
variable {s : State} (hvm : s.rflags.vm = false)
include hvm

theorem execSyscall_of_sce (h : s.sce = true) : exec .syscall s = .next (s.setAnswer .permitted) :=
  (outsideVirtual8086_of_not_vm _ hvm).trans (if_neg (by simp [h]))

theorem execSyscall_of_not_sce (h : s.sce = false) : exec .syscall s = .fault .notPermitted :=
  (outsideVirtual8086_of_not_vm _ hvm).trans (if_pos (by simp [h]))

theorem execSysret_of_not_sce (h : s.sce = false) : exec .sysret s = .fault .notPermitted :=
  (outsideVirtual8086_of_not_vm _ hvm).trans (if_pos (by simp [h]))

theorem execSysret_of_level0 (h : s.sce = true) (hcpl : s.gateCpl = 0) :
    exec .sysret s = .next (s.setAnswer .permitted) :=
  (outsideVirtual8086_of_not_vm _ hvm).trans ((if_neg (by simp [h])).trans (if_neg (by simp [hcpl])))

theorem execSysret_of_user (h : s.sce = true) (hcpl : s.gateCpl ≠ 0) : exec .sysret s = .fault .notPermitted :=
  (outsideVirtual8086_of_not_vm _ hvm).trans ((if_neg (by simp [h])).trans (if_pos (by simp [hcpl])))

/-! The SVM instructions are one gate. -/

theorem execSvm_of_svme {i : Instr} (hi : i ∈ [.vmrun, .vmmcall, .vmload, .vmsave, .stgi, .clgi, .skinit, .invlpga])
    (h : s.svme = true) : exec i s = .next (s.setAnswer .permitted) := by
  have hgate : svmGate s s.permit = .next (s.setAnswer .permitted) :=
    (outsideVirtual8086_of_not_vm _ hvm).trans (if_pos h)
  simp only [List.mem_cons, List.not_mem_nil, or_false] at hi
  obtain rfl | rfl | rfl | rfl | rfl | rfl | rfl | rfl := hi <;> exact hgate

theorem execSvm_of_not_svme {i : Instr}
    (hi : i ∈ [.vmrun, .vmmcall, .vmload, .vmsave, .stgi, .clgi, .skinit, .invlpga]) (h : s.svme = false) :
    exec i s = .fault .invalidOpcode := by
  have hgate : svmGate s s.permit = .fault .invalidOpcode :=
    (outsideVirtual8086_of_not_vm _ hvm).trans (if_neg (by simp [h]))
  simp only [List.mem_cons, List.not_mem_nil, or_false] at hi
  obtain rfl | rfl | rfl | rfl | rfl | rfl | rfl | rfl := hi <;> exact hgate

end

/-- Settles O36. -/
theorem syscallAndSysret : Obligations.SyscallAndSysret := fun _ hvm =>
  ⟨execSyscall_of_sce hvm, execSysret_of_level0 hvm, execSysret_of_user hvm,
    fun h => ⟨execSyscall_of_not_sce hvm h, execSysret_of_not_sce hvm h⟩⟩

/-- Settles O38: with SVME_DISABLE set a value that asks for SVME asks for an absent feature. -/
theorem svmeEnablesSvm : Obligations.SvmeEnablesSvm := by
  refine ⟨by decide, fun s t => ⟨fun i hvm hi => ⟨execSvm_of_not_svme hvm hi, fun h => ⟨_, execSvm_of_svme hvm hi h⟩⟩,
    fun h hdisable => ?_⟩⟩
  obtain ⟨hwrite, rfl⟩ := execWrmsr_eq_next h
  obtain ⟨-, -, -, -, hfeatures, -, -⟩ := writeEfer_eq_next hwrite
  obtain ⟨-, -, -, hsvm⟩ := State.eferFeatureAbsent_eq_false.mp hfeatures
  refine Bool.eq_false_iff.mpr fun h12 => ?_
  obtain ⟨-, henabled⟩ := hsvm h12
  exact Bool.false_ne_true (henabled.symm.trans hdisable)

/-- Settles O39. -/
theorem sceEnablesSyscall : Obligations.SceEnablesSyscall := by
  refine fun s hvm => ⟨⟨?_, fun h => ⟨_, execSyscall_of_sce hvm h⟩⟩, fun hcpl =>
    ⟨?_, fun h => ⟨_, execSysret_of_level0 hvm h hcpl⟩⟩⟩
  · rintro ⟨t, ht⟩
    exact (execSyscall_eq_next ht).1
  · rintro ⟨t, ht⟩
    exact (execSysret_eq_next ht).1

/-! CPUID. -/

/-- Replacing bit `k` of a 32-bit result changes bit `k` alone. -/
theorem getLsbD_withBit32 (v : BitVec 32) {k : Nat} (b : Bool) (j : Nat) (hk : k < 32) :
    (withBit32 v k b).getLsbD j = if j = k then b else v.getLsbD j := by
  have hbit (j : Nat) : (1#32 <<< k).getLsbD j = decide (k = j) := by
    rw [← BitVec.twoPow_eq, BitVec.getLsbD_twoPow, decide_eq_true hk, Bool.true_and]
  unfold withBit32
  split
  · rw [BitVec.getLsbD_or, hbit]
    by_cases e : j = k
    · simp [*]
    · simp [e, Ne.symm e]
  · rw [BitVec.getLsbD_and, BitVec.getLsbD_not, hbit]
    by_cases e : j = k
    · simp [*]
    · by_cases hj : j < 32
      · simp [e, Ne.symm e, hj]
      · simp [e, hj, BitVec.getLsbD_of_ge v j (by omega)]

theorem State.cpuidEdx_features {s : State} (h : s.reg32 eax = featureFunction) :
    s.cpuidEdx.getLsbD 20 = s.params.hasNx ∧ s.cpuidEdx.getLsbD 25 = s.params.hasFfxsr ∧
      s.cpuidEdx.getLsbD 29 = s.params.hasLm := by
  rw [State.cpuidEdx, if_pos h]
  refine ⟨?_, ?_, ?_⟩
  all_goals
    rw [getLsbD_withBit32 _ _ _ (by decide), getLsbD_withBit32 _ _ _ (by decide), getLsbD_withBit32 _ _ _ (by decide)]
    rfl

theorem State.cpuidEcx_features {s : State} (h : s.reg32 eax = featureFunction) :
    s.cpuidEcx.getLsbD 2 = s.params.hasSvm := by
  rw [State.cpuidEcx, if_pos h, getLsbD_withBit32 _ _ _ (by decide)]
  rfl

/-- Settles O40. -/
theorem cpuidCompletes : Obligations.CpuidCompletes := by
  refine fun s hvm => ⟨_, _, _, _, outsideVirtual8086_of_not_vm _ hvm, fun h => ?_⟩
  obtain ⟨hnx, hffxsr, hlm⟩ := State.cpuidEdx_features h
  refine ⟨hnx, hffxsr, ?_, State.cpuidEcx_features h⟩
  rw [hlm, Params.hasLm_eq_true]

end Sys2Proof.Machine

namespace Sys2Proof

/-- Settles O37. -/
theorem svmGate : Obligations.SvmGate := fun _ _ hvm hi =>
  ⟨Machine.execSvm_of_svme hvm hi, Machine.execSvm_of_not_svme hvm hi⟩

end Sys2Proof

/-! Hardware events and inputs, the TLB, the top-level table and reset, forward. -/

namespace Sys2Proof.Machine

/-! Page faults. -/

theorem takePageFault_of_pg {s : State} (la : Word) (hpg : s.pg = true) :
    takePageFault la s = .next ((s.setCr2 (s.linearOf la)).setRaised (some (.pageFault (s.linearOf la)))) :=
  if_pos hpg

theorem takePageFault_of_not_pg {s : State} (la : Word) (hpg : s.pg = false) :
    takePageFault la s = .refused .pageFaultWithPagingOff :=
  if_neg (by rw [hpg]; exact Bool.false_ne_true)

theorem State.linearOf_eq (s : State) (la : Word) :
    s.linearOf la = if s.params.arch = .x86_32 then zext64 (low32 la) else la := by
  cases h : s.params.arch <;> simp [State.linearOf, h]

/-- Settles O41. -/
theorem pageFaultLoadsCr2 : Obligations.PageFaultLoadsCr2 := by
  intro s la ts hraised hsched hpg
  exact ⟨_, (step_of_turn hraised hsched).trans (takePageFault_of_pg la hpg), s.linearOf_eq la, rfl⟩

/-- Settles O42. -/
theorem pageFaultEndsRun : Obligations.PageFaultEndsRun := fun _ la _ hraised hsched =>
  ⟨fun hpg => ⟨_, (step_of_turn hraised hsched).trans (takePageFault_of_pg la hpg), step_of_raised rfl⟩,
    fun hpg => (step_of_turn hraised hsched).trans (takePageFault_of_not_pg la hpg)⟩

/-! Machine checks. -/

section
variable {s : State} {bank : Nat} {error : Content}

theorem takeMachineCheck_of_mce (hmce : s.mce = true) : takeEvent (.machineCheck bank error true) s =
    .next ((s.recordError bank error).setRaised (some .machineCheck)) := by
  simp [takeEvent, takeMachineCheck, hmce]

theorem takeMachineCheck_of_not_mce (hmce : s.mce = false) :
    takeEvent (.machineCheck bank error true) s = .refused .machineCheckWithMceClear := by
  simp [takeEvent, takeMachineCheck, hmce]

/-- Recording writes the banks alone. -/
theorem State.recordError_eq_setMcBanks (s : State) (bank : Nat) (error : Content) :
    s.recordError bank error = s.setMcBanks (s.recordError bank error).mcBanks := by
  obtain e | ⟨b, e⟩ := s.recordError_eq bank error <;> rw [e] <;> rfl

theorem State.recordError_of_not_enabled
    (h : Config.mcErrorEnabled (storeGet bankDefault s.mcBanks bank).control error = false) :
    s.recordError bank error = s :=
  if_neg (by rw [h]; exact Bool.false_ne_true)

theorem State.recordError_of_enabled
    (h : Config.mcErrorEnabled (storeGet bankDefault s.mcBanks bank).control error = true) :
    s.recordError bank error = s.setMcBanks (storePut bankDefault s.mcBanks bank
      ⟨(storeGet bankDefault s.mcBanks bank).control,
        Config.mcStatusAfter (storeGet bankDefault s.mcBanks bank).status error⟩) :=
  if_pos h

theorem State.recordError_setSchedule (s : State) (ts : List Turn) (bank : Nat) (error : Content) :
    (s.setSchedule ts).recordError bank error = (s.recordError bank error).setSchedule ts := by
  cases h : Config.mcErrorEnabled (storeGet bankDefault s.mcBanks bank).control error with
  | false => rw [State.recordError_of_not_enabled (s := s.setSchedule ts) h, State.recordError_of_not_enabled h]
  | true =>
    rw [State.recordError_of_enabled (s := s.setSchedule ts) h, State.recordError_of_enabled h]
    rfl

theorem State.recordError_other {b : Nat} (hb : b ≠ bank) :
    storeGet bankDefault (s.recordError bank error).mcBanks b = storeGet bankDefault s.mcBanks b := by
  obtain e | ⟨v, e⟩ := s.recordError_eq bank error
  · rw [e]
  · rw [e, State.setMcBanks_mcBanks, storeGet_storePut_other _ _ _ hb]

/-- The uncorrectable error's turn, and the step after it. -/
theorem step_machineCheck {ts : List Turn} (hraised : s.raised = none)
    (hsched : s.schedule = .event (.machineCheck bank error true) :: ts) (hmce : s.mce = true) :
    step s = .next (((s.recordError bank error).setSchedule ts).setRaised (some .machineCheck)) := by
  rw [step_of_turn hraised hsched, ← State.recordError_setSchedule]
  exact takeMachineCheck_of_mce hmce

end

/-- Settles O43. -/
theorem machineCheckErrors : Obligations.MachineCheckErrors := by
  refine fun s bank error => ⟨rfl, takeMachineCheck_of_mce, fun ts hraised hsched hmce => ?_,
    takeMachineCheck_of_not_mce, s.recordError_eq_setMcBanks bank error, fun b hb => State.recordError_other hb,
    State.recordError_of_not_enabled, fun hwf henabled => ?_⟩
  · refine ⟨_, step_machineCheck hraised hsched hmce, ?_, step_of_raised rfl⟩
    rw [s.recordError_eq_setMcBanks bank error]
    rfl
  · rw [State.recordError_of_enabled henabled, State.setMcBanks_mcBanks, storeGet_storePut _ _ _ _ _ hwf, if_pos rfl]

/-! Inputs. -/

theorem State.operandBits_of_mode64 {s : State} (h : s.mode64 = true) : s.operandBits = 32 := by
  simp [State.operandBits, State.codeSize, h, CodeSize.operandBits]

theorem State.operandBits_of_realMode {s : State} (h : s.mode64 = false) (hpe : s.pe = false) :
    s.operandBits = 16 := by
  simp [State.operandBits, State.codeSize, State.realMode, h, hpe, CodeSize.operandBits]

theorem State.operandBits_of_protectedMode {s : State} (h : s.mode64 = false) (hpe : s.pe = true) :
    s.operandBits = if s.csD then 32 else 16 := by
  cases hd : s.csD <;> simp [State.operandBits, State.codeSize, State.realMode, h, hpe, hd, CodeSize.operandBits]

/-- Settles O60. -/
theorem inputsWriteTheirField : Obligations.InputsWriteTheirField := fun s b ts hraised =>
  ⟨fun hsched => ⟨_, step_of_turn hraised hsched, rfl, rfl, rfl⟩,
    fun hsched => ⟨_, step_of_turn hraised hsched, rfl,
      State.operandBits_of_mode64 (s := (s.setSchedule ts).setCsD b),
      State.operandBits_of_realMode (s := (s.setSchedule ts).setCsD b),
      State.operandBits_of_protectedMode (s := (s.setSchedule ts).setCsD b)⟩,
    fun hsched => step_of_turn hraised hsched⟩

/-! The TLB. -/

theorem takeTlbFill_of_pg {s : State} (la pa : Word) (g : Bool) (hpg : s.pg = true) :
    takeTlbFill la pa g s = .next (s.setTlb (s.tlb.insert ⟨la, pa, g && s.pge⟩)) :=
  if_pos hpg

theorem takeTlbFill_of_not_pg {s : State} (la pa : Word) (g : Bool) (hpg : s.pg = false) :
    takeTlbFill la pa g s = .next s :=
  if_neg (by rw [hpg]; exact Bool.false_ne_true)

/-- Settles O44. -/
theorem tlbSteps : Obligations.TlbSteps := by
  refine fun s la pa g e => ⟨?_, _, rfl, rfl, fun x => by simp⟩
  cases hpg : s.pg with
  | false => exact ⟨_, takeTlbFill_of_not_pg la pa g hpg, rfl, fun x => by simp⟩
  | true => exact ⟨_, takeTlbFill_of_pg la pa g hpg, rfl, fun x => by simp [or_comm]⟩

/-! The top-level table. -/

/-- The bits of a field of CR3 put back in its place. -/
theorem getLsbD_fieldInPlace (v : Word) (k w i : Nat) :
    (0#32 ++ v.extractLsb' k w ++ 0#k).getLsbD i = (decide (k ≤ i ∧ i < k + w) && v.getLsbD i) := by
  rw [BitVec.getLsbD_append, BitVec.getLsbD_append, BitVec.getLsbD_extractLsb', BitVec.getLsbD_zero,
    BitVec.getLsbD_zero]
  by_cases hk : i < k
  · simp [hk, Nat.not_le.mpr hk]
  · have hi : k + (i - k) = i := by omega
    have hw : i - k < w ↔ i < k + w := by omega
    by_cases h : i < k + w <;> simp [hk, hi, hw, h, Nat.not_lt.mp hk]

/-- Without PAE the base is CR3[31:12] (10_state.md R22). -/
theorem and_cr3Base (v : Word) : v &&& 0xFFFFF000#64 = (0#32 ++ v.extractLsb' 12 20 ++ 0#12 : BitVec 64) := by
  have hmask : ∀ i < 64, (0xFFFFF000#64).getLsbD i = decide (12 ≤ i ∧ i < 32) := by decide
  refine BitVec.eq_of_getLsbD_eq fun i hi => ?_
  rw [getLsbD_fieldInPlace, BitVec.getLsbD_and, hmask i hi, Bool.and_comm]

/-- With PAE the base is CR3[31:5] (10_state.md R23). -/
theorem and_cr3BasePae (v : Word) : v &&& 0xFFFFFFE0#64 = (0#32 ++ v.extractLsb' 5 27 ++ 0#5 : BitVec 64) := by
  have hmask : ∀ i < 64, (0xFFFFFFE0#64).getLsbD i = decide (5 ≤ i ∧ i < 32) := by decide
  refine BitVec.eq_of_getLsbD_eq fun i hi => ?_
  rw [getLsbD_fieldInPlace, BitVec.getLsbD_and, hmask i hi, Bool.and_comm]

/-- A word that ends in `k` zeros is a multiple of `2 ^ k`. -/
theorem toNat_append_zero_mod {w : Nat} (x : BitVec w) (k : Nat) : (x ++ 0#k).toNat % 2 ^ k = 0 := by
  rw [BitVec.toNat_append, BitVec.toNat_ofNat, Nat.zero_mod, Nat.or_zero, Nat.shiftLeft_eq, Nat.mul_mod_left]

section
variable {s : State}

theorem State.topTable_of_not_pae (hpg : s.pg = true) (hlma : s.lma = false) (hpae : s.pae = false) :
    s.topTable = some ⟨0#32 ++ s.cr3.extractLsb' 12 20 ++ 0#12, 1024, 4, 2⟩ := by
  rw [← and_cr3Base]
  simp [State.topTable, State.tableBase, hpg, hlma, hpae]

theorem State.topTable_of_pae (hpg : s.pg = true) (hlma : s.lma = false) (hpae : s.pae = true) :
    s.topTable = some ⟨0#32 ++ s.cr3.extractLsb' 5 27 ++ 0#5, 4, 8, 3⟩ := by
  rw [← and_cr3BasePae]
  simp [State.topTable, State.tableBase, hpg, hlma, hpae]

theorem State.topTable_eq_none (h : s.pg = false ∨ s.lma = true) : s.topTable = none := by
  obtain h | h := h <;> simp [State.topTable, h]

/-! What translation does not read. -/

/-- The bits of CR3 other than PWT and PCD decide what translation sees of it. -/
theorem cr3_andNot_congr {v cr3 : Word} (h : ∀ k < 64, k ≠ 3 → k ≠ 4 → v.getLsbD k = cr3.getLsbD k) :
    v &&& ~~~0x18#64 = cr3 &&& ~~~0x18#64 := by
  refine BitVec.eq_of_getLsbD_eq fun k hk => ?_
  rw [BitVec.getLsbD_and, BitVec.getLsbD_and]
  by_cases h34 : k = 3 ∨ k = 4
  · obtain rfl | rfl := h34 <;> exact (Bool.and_false _).trans (Bool.and_false _).symm
  · rw [not_or] at h34
    rw [h k hk h34.1 h34.2]

theorem State.translate_setCr3 {v : Word} (h : ∀ k < 64, k ≠ 3 → k ≠ 4 → v.getLsbD k = s.cr3.getLsbD k) (a : Word) :
    (s.setCr3 v).translate a = s.translate a := by
  refine State.translate_congr (s := s) (t := s.setCr3 v) rfl ?_ a
  exact congrArg (fun field => { s.pagingView with tableField := field }) (cr3_andNot_congr h)

theorem State.translate_setEfer {v : Word} (hlma : v.getLsbD 10 = s.efer.getLsbD 10)
    (hnxe : v.getLsbD 11 = s.efer.getLsbD 11) (a : Word) : (s.setEfer v).translate a = s.translate a := by
  refine State.translate_congr (s := s) (t := s.setEfer v) rfl ?_ a
  exact congrArg₂ (fun lma nxe => { s.pagingView with lma := lma, nxe := nxe }) hlma hnxe

theorem State.translate_setCr0 {v : Word} (hpg : v.getLsbD 31 = s.cr0.getLsbD 31) (a : Word) :
    (s.setCr0 v).translate a = s.translate a :=
  State.translate_congr (s := s) (t := s.setCr0 v) hpg (s.setCr0_pagingView v) a

end

/-- Settles O45. -/
theorem topLevelTable : Obligations.TopLevelTable := by
  refine fun s => ⟨fun hpg hlma hpae => ?_, fun hpg hlma hpae => ?_, State.topTable_eq_none, fun hpae => if_pos hpae,
    fun hpae => if_neg (Bool.eq_false_iff.mp hpae), fun v h => State.translate_setCr3 h,
    fun v h => State.translate_setEfer (h 10 (by decide) (by decide)) (h 11 (by decide) (by decide)),
    fun v h => State.translate_setCr0 (h 31 (by decide) (by decide))⟩
  · exact ⟨_, State.topTable_of_not_pae hpg hlma hpae, rfl, rfl, rfl, rfl, toNat_append_zero_mod _ 12⟩
  · exact ⟨_, State.topTable_of_pae hpg hlma hpae, rfl, rfl, rfl, rfl, toNat_append_zero_mod _ 5⟩

/-! Reset. -/

theorem State.reset_getGpr (r : BitVec 4) : State.reset.getGpr r = 0#64 := by
  simp [State.reset, State.getGpr]

theorem State.inv_reset : State.reset.Inv where
  lma := rfl
  cr0High := by decide
  cr3Low := by decide
  cr3High := by decide
  cr3Unnamed := fun _ => by decide
  cr4Named := by decide
  eferNamed := by decide
  paging := by decide
  longModePae := by decide
  features := rfl
  xsave := fun h => absurd h (by decide)
  mem := reset_mem_wf
  perf := by decide
  mcBanks := by decide
  tlb := List.nodup_nil
  narrow := fun _ => ⟨by decide, by decide, by decide, fun r => by rw [State.reset_getGpr]; decide⟩

/-- Settles O52. -/
theorem resetState : Obligations.ResetState :=
  ⟨by decide, State.inv_reset, State.inv_reset.cr3Unnamed⟩

end Sys2Proof.Machine
